-- ==== Sys2Proof/Word.lean ====
section
/-! DEFINITION. The one word type of the block: the byte. -/

namespace Sys2Proof

/-- Every stored value of the bus and of the host link is an unsigned byte, bit 0 the least
significant (00_scope.md R10). -/
abbrev Byte := BitVec 8

end Sys2Proof
end

