-- ==== Sys2Proof/Syntax.lean ====
section
/-! DEFINITION. The instructions: one constructor per row of spec/opcode_table.json, that is per row of
the opcode map of 30_encoding.md R85. -/

namespace Sys2Proof

/-- A host command line, its fields pulled apart (30_encoding.md R85 to R88). A field that a short line
may lack is an Option or a shorter list; characters a rule ignores are kept, so that encoding drops
nothing. -/
inductive Instr where
  /-- `N` (R225) -/
  | serialNumber (ignored : List Byte)
  /-- `v` (R226) -/
  | swVersion (ignored : List Byte)
  /-- `V` (R227) -/
  | hwVersion (ignored : List Byte)
  /-- `O` (R228): accepted only with no payload -/
  | openSession (payload : List Byte)
  /-- `C` (R229) -/
  | closeSession (ignored : List Byte)
  /-- `S` (R230): lineBuf[1], and lineBuf[2..] -/
  | selectBitrate (digit : Option Byte) (ignored : List Byte)
  /-- `s` (R231): an opaque payload -/
  | customBitrate (payload : List Byte)
  /-- `Z` (R232): lineBuf[1], and the characters after it, which make the line too long -/
  | setTimestamp (digit : Option Byte) (extra : List Byte)
  /-- `t` (R86, R233): lineBuf[1..3], lineBuf[4], the 2n data digits from lineBuf[5] on, and
  lineBuf[5+2n..] -/
  | transmit (idDigits : List Byte) (lenDigit : Option Byte) (dataDigits : List Byte)
      (ignored : List Byte)
  /-- any other command byte (R234) -/
  | other (op : Byte) (payload : List Byte)
  deriving DecidableEq, Repr, Inhabited

end Sys2Proof
end

