-- ==== Sys2Proof/Decode.lean ====
section
/-! DEFINITION. From a line's bytes to an instruction and back: the character codes, hex digits, the
decoder, the encoder, and the host's numbering of a table word. -/

namespace Sys2Proof

/-! ## Character codes (30_encoding.md R97; all but CR and BEL PRESUMED, log 12) -/

def Ascii.nul : Byte := 0x00#8
def Ascii.bel : Byte := 0x07#8
def Ascii.lf : Byte := 0x0A#8
def Ascii.cr : Byte := 0x0D#8
def Ascii.space : Byte := 0x20#8
def Ascii.digit0 : Byte := 0x30#8
def Ascii.upperA : Byte := 0x41#8
def Ascii.lowerA : Byte := 0x61#8
def Ascii.upperN : Byte := 0x4E#8
def Ascii.lowerV : Byte := 0x76#8
def Ascii.upperV : Byte := 0x56#8
def Ascii.upperO : Byte := 0x4F#8
def Ascii.upperC : Byte := 0x43#8
def Ascii.upperS : Byte := 0x53#8
def Ascii.lowerS : Byte := 0x73#8
def Ascii.upperZ : Byte := 0x5A#8
def Ascii.lowerT : Byte := 0x74#8

/-! ## Hex digits -/

/-- The value of a hex digit character; any other character counts 0 (30_encoding.md R89). -/
def hexval (c : Byte) : Nat :=
  let v := c.toNat
  if 0x30 ≤ v ∧ v ≤ 0x39 then v - 0x30
  else if 0x41 ≤ v ∧ v ≤ 0x46 then v - 0x41 + 10
  else if 0x61 ≤ v ∧ v ≤ 0x66 then v - 0x61 + 10
  else 0

/-- A data length a frame may have (30_encoding.md R86, 44_command_protocol.md R233). -/
def dlcValid (n : Nat) : Bool := decide (1 ≤ n) && decide (n ≤ 8)

/-- How many data digits a `t` line has after this length digit (30_encoding.md R86); a length outside
1..8 reads no data (44_command_protocol.md R233). -/
def dataDigitCount (lenDigit : Byte) : Nat :=
  if dlcValid (hexval lenDigit) then 2 * hexval lenDigit else 0

/-! ## The decoder -/

/-- The command bytes of the opcode map that have a row of their own (30_encoding.md R85). -/
def listedOpcodes : List Byte :=
  [Ascii.upperN, Ascii.lowerV, Ascii.upperV, Ascii.upperO, Ascii.upperC, Ascii.upperS, Ascii.lowerS,
    Ascii.upperZ, Ascii.lowerT]

/-- The longest line that can be dispatched (44_command_protocol.md R222). -/
def maxLine : Nat := 25

/-- Why a byte sequence is no host line. -/
inductive Reject where
  /-- an empty line dispatches nothing (44_command_protocol.md R221) -/
  | emptyLine
  /-- a line of more than 25 characters never reaches dispatch (44_command_protocol.md R222) -/
  | overlongLine
  deriving DecidableEq, Repr, Inhabited

/-- The fields of a `t` payload (30_encoding.md R86). -/
def decodeTransmit (payload : List Byte) : Instr :=
  match payload.drop 3 with
  | [] => .transmit (payload.take 3) none [] []
  | d :: rest =>
    .transmit (payload.take 3) (some d) (rest.take (dataDigitCount d)) (rest.drop (dataDigitCount d))

/-- The row of the opcode map that the command byte selects, exactly and case-sensitively
(30_encoding.md R85, 44_command_protocol.md R223). -/
def decodeOp (op : Byte) (payload : List Byte) : Instr :=
  if op = Ascii.upperN then .serialNumber payload
  else if op = Ascii.lowerV then .swVersion payload
  else if op = Ascii.upperV then .hwVersion payload
  else if op = Ascii.upperO then .openSession payload
  else if op = Ascii.upperC then .closeSession payload
  else if op = Ascii.upperS then .selectBitrate payload.head? payload.tail
  else if op = Ascii.lowerS then .customBitrate payload
  else if op = Ascii.upperZ then .setTimestamp payload.head? payload.tail
  else if op = Ascii.lowerT then decodeTransmit payload
  else .other op payload

/-- The instruction a line is (30_encoding.md R84, R85). -/
def decode (line : List Byte) : Except Reject Instr :=
  match line with
  | [] => .error .emptyLine
  | op :: payload =>
    if payload.length + 1 ≤ maxLine then .ok (decodeOp op payload) else .error .overlongLine

/-! ## The encoder -/

/-- The characters of a `t` line after its command byte, in order (30_encoding.md R86). -/
def transmitPayload (idDigits : List Byte) (lenDigit : Option Byte)
    (dataDigits ignored : List Byte) : List Byte :=
  idDigits ++ lenDigit.toList ++ dataDigits ++ ignored

/-- The line of an instruction: its command byte, then its characters (30_encoding.md R85 to R88). -/
def encode (i : Instr) : List Byte :=
  match i with
  | .serialNumber ignored => Ascii.upperN :: ignored
  | .swVersion ignored => Ascii.lowerV :: ignored
  | .hwVersion ignored => Ascii.upperV :: ignored
  | .openSession payload => Ascii.upperO :: payload
  | .closeSession ignored => Ascii.upperC :: ignored
  | .selectBitrate digit ignored => Ascii.upperS :: (digit.toList ++ ignored)
  | .customBitrate payload => Ascii.lowerS :: payload
  | .setTimestamp digit extra => Ascii.upperZ :: (digit.toList ++ extra)
  | .transmit idDigits lenDigit dataDigits ignored =>
    Ascii.lowerT :: transmitPayload idDigits lenDigit dataDigits ignored
  | .other op payload => op :: payload

/-! ## The host's table words -/

/-- The line that a table word of `nbits` bits stands for: its bytes, the first in bits 7..0. The zero
byte above it is the NUL that ends every dispatched line (44_command_protocol.md R221). DESIGN CHOICE,
log 1. -/
def tableLine (nbits w : Nat) : List Byte :=
  (List.range (max 1 (nbits / 8))).map fun k => BitVec.ofNat 8 (w >>> (8 * k))

/-- The instruction the decoder reads from a table word. -/
def decodeTableWord (nbits w : Nat) : Option Instr :=
  match decode (tableLine nbits w) with
  | .ok i => some i
  | .error _ => none

end Sys2Proof
end

