-- ==== Sys2Proof/Config.lean ====
section
/-! DEFINITION. What one implementation fixes, what the environment may do, and the free values: the
records of parameters, the environment's events, and the constants that nothing constrains. -/

namespace Sys2Proof

/-- A line level: low is dominant, high is recessive (00_scope.md R12). -/
inductive Level where
  | low
  | high
  deriving DecidableEq, Repr, Inhabited

/-- The outcome of one bounded busy-wait, drawn by the bus (00_scope.md R9). -/
inductive Wait where
  | edge
  | timeout
  deriving DecidableEq, Repr, Inhabited

/-- What a serial write does when the TX queue is full (92_eei_decisions.md D19). -/
inductive TxFullPolicy where
  | block
  | drop
  deriving DecidableEq, Repr, Inhabited

/-- What `capacity()` of the serial TX queue leaves (60_exceptions.md R322). DESIGN CHOICE, log 7:
`ample` is a host that drains at least as fast as the block writes; `free n` is room for n bytes. -/
inductive TxRoom where
  | ample
  | free (n : Nat)
  deriving DecidableEq, Repr, Inhabited

/-- One event of the run: what the environment does next, or which step the main loop chooses
(00_scope.md R9, 20_memory.md R69, 45_host_forwarding.md R265). DESIGN CHOICE, log 3: the draws of a
tick stand in its event. -/
inductive Event where
  /-- a BitTimer tick: the sampled level, the outcome of the first wait of this invocation and that of
  the second (an invocation starts at most two waits, 40_receiver.md R123, R124, R130) -/
  | tick (sample : Level) (first second : Wait)
  /-- the host's byte arrives in the serial RX queue -/
  | hostSends (b : Byte)
  /-- the host drains the serial TX queue, or lets it fill: its room is now this -/
  | txQueue (room : TxRoom)
  /-- the main loop takes step (a) of R265: one host byte, if there is one -/
  | serveHost
  /-- the main loop starts step (b) of R265: ForwardOne, its pop -/
  | forward
  /-- the main loop takes step (c) of R265: ReadAndClearErrors -/
  | readErrors
  /-- the main loop goes on to the next atomic unit of the step it is in (20_memory.md R69) -/
  | proceed
  deriving DecidableEq, Repr, Inhabited

/-- The Config record of 10_state.md R39. -/
structure TimerCfg where
  prescale : Nat
  countsPerBit : Nat
  countsPerHalfBit : Nat
  /-- "ticks until a following start bit must appear": the bound T_INTER_BYTE of 40_receiver.md R130 -/
  startBitTimeout : Nat
  deriving DecidableEq, Repr, Inhabited

/-- The named parameters of 00_scope.md R8. DESIGN CHOICE, log 8: they stand in State, written by no
step, so that a claim about every state is a claim about every build. -/
structure Params where
  checksumIncludesId : Bool
  overflowDiscardsRest : Bool
  forwardRequiresConnected : Bool
  txFullPolicy : TxFullPolicy
  serialString : List Byte
  swVersionString : List Byte
  hwVersionString : List Byte
  baud : Nat
  tBreakEnd : Nat
  tSyncStart : Nat
  interByteMultiplier : Nat
  /-- the bit rate of each digit `S` accepts (92_eei_decisions.md D30); no rule reads it -/
  bitrateTable : List (Nat × Nat)
  deriving DecidableEq, Repr, Inhabited

namespace Config

/-! The OPEN parameters of 00_scope.md R8: constants of which nothing is known. -/

/-- FORWARD_REQUIRES_CONNECTED, OPEN (D20). -/
opaque forwardRequiresConnected : Bool
/-- TX_FULL_POLICY, OPEN (D19). -/
opaque txFullPolicy : TxFullPolicy
/-- SERIAL_STRING, OPEN (D18). -/
opaque serialString : List Byte
/-- SW_VERSION_STRING, OPEN (D18). -/
opaque swVersionString : List Byte
/-- HW_VERSION_STRING, OPEN (D18). -/
opaque hwVersionString : List Byte
/-- BAUD, OPEN (D29). -/
opaque baud : Nat
/-- T_BREAK_END, OPEN (D29). -/
opaque tBreakEnd : Nat
/-- T_SYNC_START, OPEN (D29). -/
opaque tSyncStart : Nat
/-- INTER_BYTE_MULTIPLIER, OPEN (D29). -/
opaque interByteMultiplier : Nat
/-- BITRATE_TABLE, OPEN (D30). -/
opaque bitrateTable : List (Nat × Nat)
/-- The computation of `cfg` from BAUD and the multiplier (R39, R343); the timer clock is not in the
source (D29). -/
opaque timerCfg (baud interByteMultiplier : Nat) : TimerCfg

/-! The reset contents the spec leaves unspecified (10_state.md section 8, 70_reset_and_hazards.md
R340). DESIGN CHOICE, log 5: constants of which nothing is known. -/

opaque resetAcc : Byte
opaque resetSlotByte (slot index : Nat) : Byte
opaque resetSlotLength (slot : Nat) : Fin 11
opaque resetLineByte (index : Nat) : Byte
opaque resetCmdId : BitVec 12
opaque resetCmdDlc : BitVec 4
opaque resetCfg : TimerCfg

/-! Free values drawn in a run, each applied to the counter `draws` of State. -/

/-- A line character past the NUL terminator (44_command_protocol.md R224). Log 6. -/
opaque staleChar (draw : Nat) : Byte
/-- The next event of a run whose schedule is used up (R9, R265). Log 3. -/
opaque freeEvent (draw : Nat) : Event

end Config

end Sys2Proof
end

