-- ==== Sys2Proof/Machine/Parameters.lean ====
section
/-! DEFINITION. The numbers of 00_scope.md R7 and the parameter record of R8 at its defaults. -/

namespace Sys2Proof.Machine

/-- BREAK_LOW_SAMPLES (00_scope.md R7). -/
def breakLowSamples : Nat := 10
/-- TX_BREAK_BITS (00_scope.md R7). -/
def txBreakBits : Nat := 13
/-- TX_BREAK_DELIMITER_BITS (00_scope.md R7). -/
def txBreakDelimiterBits : Nat := 1
/-- SYNC_VALUE (00_scope.md R7). -/
def syncValue : Byte := 0x55#8
/-- FRAME_CAPACITY (00_scope.md R7). -/
def frameCapacity : Nat := 10
/-- LINE_CAPACITY (00_scope.md R7). -/
def lineCapacity : Nat := 26

/-- The parameters of 00_scope.md R8: CHECKSUM_INCLUDES_ID true (D10) and OVERFLOW_DISCARDS_REST false
(D11) are the spec's defaults; the OPEN ones are unconstrained. Log 8. -/
def buildParams : Params where
  checksumIncludesId := true
  overflowDiscardsRest := false
  forwardRequiresConnected := Config.forwardRequiresConnected
  txFullPolicy := Config.txFullPolicy
  serialString := Config.serialString
  swVersionString := Config.swVersionString
  hwVersionString := Config.hwVersionString
  baud := Config.baud
  tBreakEnd := Config.tBreakEnd
  tSyncStart := Config.tSyncStart
  interByteMultiplier := Config.interByteMultiplier
  bitrateTable := Config.bitrateTable

end Sys2Proof.Machine
end

