-- ==== Sys2Proof/Machine/State.lean ====
section
/-! DEFINITION. The state of the block as plain data, its reset value, and the reasons to stop. -/

namespace Sys2Proof.Machine

/-- The Receiver's modes; "no other states exist" (10_state.md R23). -/
inductive RxMode where
  | detectBreak
  | readData
  deriving DecidableEq, Repr, Inhabited

/-- The BitTimer's programming (10_state.md R28). -/
inductive TimerPhase where
  | free
  | centred
  deriving DecidableEq, Repr, Inhabited

/-- How far the boot sequence of 70_reset_and_hazards.md R342 has come. Steps 5 and 6 are one: after
`running` the main loop's steps are taken. Log 4. -/
inductive BootPhase where
  | fieldsReset
  | cfgComputed
  | txReleased
  | timerStarted
  | running
  deriving DecidableEq, Repr, Inhabited

/-- Where the main loop stands between two atomic units (20_memory.md R69): a step of R265 that holds a unit
of kind (b) or (c) is more than one unit. Log 16. -/
inductive MainTask where
  /-- between two iterations: the next step is chosen (45_host_forwarding.md R265) -/
  | choosing
  /-- inside a `t` command, before its transmission (44_command_protocol.md R233) -/
  | transmitting (addr : Byte) (data : List Byte)
  /-- inside a `t` command, after its transmission and before its CR (44_command_protocol.md R233) -/
  | replying
  /-- inside ForwardOne, after the pop: the main loop's own copy of the frame (45_host_forwarding.md
  R263) -/
  | forwarding (f : List Byte)
  deriving DecidableEq, Repr, Inhabited

/-- One ring-buffer slot: a Frame of FRAME_CAPACITY bytes and its length (10_state.md R29). -/
structure Slot where
  bytes : Vector Byte 10
  length : Fin 11
  deriving DecidableEq, Repr, Inhabited

/-- The state of the block (10_state.md R20), its place in the boot sequence (R342) and in the main loop
(20_memory.md R69), and the model's own fields for its environment (logs 3, 6, 7, 8, 9). -/
structure State where
  -- Receiver
  rxMode : RxMode
  lowCount : Nat
  byteCount : Nat
  bitPos : Nat
  acc : Byte
  timerPhase : TimerPhase
  -- FrameRingBuffer
  slots : Vector Slot 8
  head : Fin 8
  tail : Fin 8
  -- ErrorAggregator
  errFlags : Byte
  -- Processor context
  irqEnabled : Bool
  -- CommandSession
  lineBuf : Vector Byte 26
  lineLen : Fin 26
  lineDiscard : Bool
  connected : Bool
  cmdId : BitVec 12
  cmdDlc : BitVec 4
  timestamp : Bool
  bitrateSel : Option Nat
  -- Config
  cfg : TimerCfg
  -- Pins
  txLevel : Level
  txTrace : List Level
  -- Host output
  hostOut : List Byte
  -- Boot sequence
  boot : BootPhase
  -- The main loop's place
  task : MainTask
  -- The model's own fields
  params : Params
  serialRx : List Byte
  txRoom : TxRoom
  txPending : List Byte
  errOut : List Byte
  schedule : List Event
  draws : Nat
  deriving DecidableEq, Repr, Inhabited

/-- The block has no fault: "The block has no fault state and no stuck state of its own"
(60_exceptions.md R305; 93_implementation_defined.md). No constructor, so no step can end in one. -/
inductive Fault where
  deriving DecidableEq, Repr

/-- Why a step has no meaning. No step of this model is refused; the type is what the host's interface
asks for. -/
inductive Refusal where
  /-- raised by an arm of exec whose instruction has no meaning yet; safe -/
  | notModelled (mnemonic : String)
  /-- raised by dispatch on a line the decoder rejects; safe, and raised in no state, since a dispatched
  line has 1 to 25 characters -/
  | undecodable (why : Reject)
  deriving DecidableEq, Repr

/-- The slot array at reset: its contents are unspecified (10_state.md R29). Log 5. -/
def State.resetSlots : Vector Slot 8 :=
  Vector.ofFn fun k =>
    { bytes := Vector.ofFn fun i => Config.resetSlotByte k i, length := Config.resetSlotLength k }

/-- The reset table of 10_state.md section 8, after step 1 of the boot sequence (70_reset_and_hazards.md
R340 to R342). Unspecified fields: log 5. The model's own fields: logs 3, 7, 8. -/
def State.reset : State where
  rxMode := .detectBreak
  lowCount := 0
  byteCount := 0
  bitPos := 0
  acc := Config.resetAcc
  timerPhase := .free
  slots := State.resetSlots
  head := 0
  tail := 0
  errFlags := 0x00#8
  irqEnabled := false
  lineBuf := Vector.ofFn fun i => Config.resetLineByte i
  lineLen := 0
  lineDiscard := false
  connected := false
  cmdId := Config.resetCmdId
  cmdDlc := Config.resetCmdDlc
  timestamp := false
  bitrateSel := none
  cfg := Config.resetCfg
  txLevel := .high
  txTrace := []
  hostOut := []
  boot := .fieldsReset
  task := .choosing
  params := buildParams
  serialRx := []
  txRoom := .ample
  txPending := []
  errOut := []
  schedule := []
  draws := 0

end Sys2Proof.Machine
end

