-- ==== Sys2Proof/Machine/Flags.lean ====
section
/-! DEFINITION. The ErrorAggregator's flags: their bits, and raising one. -/

namespace Sys2Proof.Machine

/-- The receiver error kinds (60_exceptions.md R301). -/
inductive RxError where
  | frameTooShort
  | frameTooLong
  | startBit
  | stopBit
  | syncByte
  | bufferOverrun
  /-- named by the source, raised by no rule (R302). Log 13. -/
  | other
  deriving DecidableEq, Repr, Inhabited

/-- The bit of each kind (10_state.md R32, the spec's choice D2). Log 13. -/
def errBit (k : RxError) : Nat :=
  match k with
  | .frameTooShort => 0
  | .frameTooLong => 1
  | .startBit => 2
  | .stopBit => 3
  | .syncByte => 4
  | .bufferOverrun => 5
  | .other => 6

/-- `1 << bit(k)` (42_ringbuffer_errors.md R183). -/
def errMask (k : RxError) : Byte := 1#8 <<< errBit k

/-- `raise RxError(k)`: OR the bit in; no control transfer (42_ringbuffer_errors.md R183). -/
def raise (k : RxError) (s : State) : State := { s with errFlags := s.errFlags ||| errMask k }

end Sys2Proof.Machine
end

