-- ==== Sys2Proof/Machine/Operands.lean ====
section
/-! DEFINITION. Reading the operands of a command: the payload characters of a line and the numbers
they spell. -/

namespace Sys2Proof.Machine

/-- `Char(i)` of 44_command_protocol.md R224, for a line whose characters after the command byte are
`payload` (so L is `payload.length + 1`) and i at least 1: the line's character, the NUL at position L,
and past it a free value, one draw for each position. Log 6. -/
def char (payload : List Byte) (draws i : Nat) : Byte :=
  if i < payload.length + 1 then payload.getD (i - 1) Ascii.nul
  else if i = payload.length + 1 then Ascii.nul
  else Config.staleChar (draws + (i - (payload.length + 2)))

/-- How many free values reading the positions up to `last` uses (R224). -/
def staleReads (payload : List Byte) (last : Nat) : Nat := last - (payload.length + 1)

/-- The 12-bit identifier of three digits, most significant first (30_encoding.md R86). -/
def idOf (c1 c2 c3 : Byte) : BitVec 12 :=
  BitVec.ofNat 12 (hexval c1 * 256 + hexval c2 * 16 + hexval c3)

/-- The low six bits of an identifier, as the byte the Transmitter takes (30_encoding.md R86). -/
def addressOf (id12 : BitVec 12) : Byte := (id12 &&& 0x03F#12).setWidth 8

/-- The byte of two hex digits, high digit first (30_encoding.md R86). -/
def byteOf (hi lo : Byte) : Byte := BitVec.ofNat 8 (hexval hi * 16 + hexval lo)

/-- The n data bytes of a `t` line, at positions 5+2i and 6+2i (30_encoding.md R86). -/
def dataOf (payload : List Byte) (draws n : Nat) : List Byte :=
  (List.range n).map fun i => byteOf (char payload draws (5 + 2 * i)) (char payload draws (6 + 2 * i))

/-- The digit an accepted `S` records: characters '0'..'6' and '8' only, compared as characters
(30_encoding.md R87). -/
def bitrateDigit (c : Byte) : Option Nat :=
  if 0x30 ≤ c.toNat ∧ c.toNat ≤ 0x38 ∧ c.toNat ≠ 0x37 then some (c.toNat - 0x30) else none

/-- The value an accepted `Z` digit sets (30_encoding.md R88). -/
def timestampDigit (c : Byte) : Option Bool :=
  if c = 0x30#8 then some false else if c = 0x31#8 then some true else none

end Sys2Proof.Machine
end

