-- ==== Sys2Proof/Machine/Ops.lean ====
section
/-! DEFINITION. The shared operations: interrupts, the slot array, the ring buffer, the error
read-and-clear, the pins, and serial output. -/

namespace Sys2Proof.Machine

/-! ## Interrupts -/

/-- `DisableIrq()` (00_scope.md R11). -/
def disableIrq (s : State) : State := { s with irqEnabled := false }

/-- `EnableIrq()` (00_scope.md R11): sets the mask open, not back to an earlier value (D27). -/
def enableIrq (s : State) : State := { s with irqEnabled := true }

/-- The consumer's wait for the invocation in progress: timing only, a no-op here (20_memory.md R72). -/
def waitForInFlightIsr (s : State) : State := s

/-- Interrupt return: the main loop goes on where it was, nothing to restore (60_exceptions.md R314). -/
def interruptReturn (s : State) : State := s

/-- Taking the one interrupt, the BitTimer tick: while `irqEnabled` is true control goes to the handler,
no state being saved; while it is false the tick runs nothing (60_exceptions.md R309, R313; 40_receiver.md
R120). Log 15. -/
def takeInterrupt (handler : State → State) (s : State) : State :=
  if s.irqEnabled then interruptReturn (handler s) else s

/-! ## The slot array -/

/-- `slot[k]` (10_state.md R29). -/
def slotAt (k : Fin 8) (s : State) : Slot := s.slots[k]

/-- Write `slot[k]` (10_state.md R29). -/
def setSlot (k : Fin 8) (f : Slot) (s : State) : State := { s with slots := s.slots.set k f }

/-- The meaningful bytes of a slot, `bytes[0..length-1]` (10_state.md R29). -/
def slotFrame (f : Slot) : List Byte := f.bytes.toList.take f.length

/-- Append a byte to a slot (40_receiver.md R129). The rules never append to a full slot; there the slot
stays (DESIGN CHOICE, log 17). -/
def slotAppend (b : Byte) (f : Slot) : Slot :=
  if h : f.length.val < 10 then
    { bytes := f.bytes.set f.length.val b, length := ⟨f.length.val + 1, by omega⟩ }
  else f

/-! ## The ring buffer and the error byte -/

/-- The number of frames the consumer can take (42_ringbuffer_errors.md R180). -/
def waitingCount (s : State) : Nat := (s.head - s.tail).val

/-- The frames the consumer can take, oldest first (42_ringbuffer_errors.md R180). -/
def waiting (s : State) : List (List Byte) :=
  (List.range (waitingCount s)).map fun j => slotFrame (slotAt (s.tail + Fin.ofNat 8 j) s)

/-- `HandOff()`: drop-oldest on collision (42_ringbuffer_errors.md R181). -/
def handOff (s : State) : State :=
  let s := { s with head := s.head + 1 }
  if s.head = s.tail then
    let s := raise .bufferOverrun s
    { s with tail := s.tail + 1 }
  else s

/-- `Pop()`: the oldest frame by value, under disabled interrupts (42_ringbuffer_errors.md R182). -/
def pop (s : State) : Option (List Byte) × State :=
  let s := disableIrq (waitForInFlightIsr s)
  if s.tail ≠ s.head then
    (some (slotFrame (slotAt s.tail s)), enableIrq { s with tail := s.tail + 1 })
  else (none, enableIrq s)

/-- `ReadAndClearErrors()` (42_ringbuffer_errors.md R184). -/
def readAndClearErrors (s : State) : Byte × State :=
  let s := disableIrq (waitForInFlightIsr s)
  (s.errFlags, enableIrq { s with errFlags := 0x00#8 })

/-! ## The TX pin -/

/-- `Drive(level, n)`: n bit periods at one level (43_transmitter.md R200). -/
def drive (l : Level) (n : Nat) (s : State) : State :=
  { s with txTrace := s.txTrace ++ List.replicate n l, txLevel := l }

/-! ## Serial output -/

/-- What the TX queue takes of a sequence of writes: the bytes written, the bytes the main loop still
waits to write, the room left (92_eei_decisions.md D19). DESIGN CHOICE, log 7: the room is the same for the
whole sequence (the host frees none between two bytes of one reply or one frame text), so under `drop` the
bytes lost are a tail, never a byte before a written one. -/
def txAccept (policy : TxFullPolicy) (room : TxRoom) (bytes : List Byte) :
    List Byte × List Byte × TxRoom :=
  match room with
  | .ample => (bytes, [], .ample)
  | .free n =>
    (bytes.take n, (match policy with | .block => bytes.drop n | .drop => []), .free (n - bytes.length))

/-- Write what the main loop has to write, as far as the TX queue takes it (60_exceptions.md R305,
R322). -/
def txDrain (s : State) : State :=
  let r := txAccept s.params.txFullPolicy s.txRoom s.txPending
  { s with hostOut := s.hostOut ++ r.1, txPending := r.2.1, txRoom := r.2.2 }

/-- `for b in bytes: SerialWrite(b)`, under TX_FULL_POLICY (10_state.md R41, 92_eei_decisions.md D19). -/
def emit (bytes : List Byte) (s : State) : State :=
  txDrain { s with txPending := s.txPending ++ bytes }

/-- `Reply(b)` (44_command_protocol.md). -/
def reply (b : Byte) (s : State) : State := emit [b] s

end Sys2Proof.Machine
end

