-- ==== Sys2Proof/Machine/Session.lean ====
section
/-! DEFINITION. The meanings of the session commands: N v V O C S s Z, and any other command byte
(44_command_protocol.md R225 to R232, R234). -/

namespace Sys2Proof.Machine

/-- `N` (44_command_protocol.md R225). -/
def execSerialNumber (_ignored : List Byte) (s : State) : Host.Outcome State Fault Refusal :=
  .next (emit s.params.serialString s)

/-- `v` (44_command_protocol.md R226). -/
def execSwVersion (_ignored : List Byte) (s : State) : Host.Outcome State Fault Refusal :=
  .next (emit s.params.swVersionString s)

/-- `V` (44_command_protocol.md R227). -/
def execHwVersion (_ignored : List Byte) (s : State) : Host.Outcome State Fault Refusal :=
  .next (emit s.params.hwVersionString s)

/-- `O` (44_command_protocol.md R228): BEL for a line with a payload is the spec's choice D14. -/
def execOpenSession (payload : List Byte) (s : State) : Host.Outcome State Fault Refusal :=
  match payload with
  | [] => .next (reply Ascii.cr { s with connected := true })
  | _ :: _ => .next (reply Ascii.bel s)

/-- `C` (44_command_protocol.md R229). -/
def execCloseSession (_ignored : List Byte) (s : State) : Host.Outcome State Fault Refusal :=
  .next (reply Ascii.cr { s with connected := false })

/-- `S` (44_command_protocol.md R230): `Char(1)` is the NUL of a line with no digit. The digit is only
recorded (D15). -/
def execSelectBitrate (digit : Option Byte) (ignored : List Byte) (s : State) :
    Host.Outcome State Fault Refusal :=
  if s.connected then .next (reply Ascii.bel s)
  else
    match bitrateDigit (char (digit.toList ++ ignored) s.draws 1) with
    | some d => .next (reply Ascii.cr { s with bitrateSel := some d })
    | none => .next (reply Ascii.bel s)

/-- `s` (44_command_protocol.md R231): accepted without effect. -/
def execCustomBitrate (_payload : List Byte) (s : State) : Host.Outcome State Fault Refusal :=
  if s.connected then .next (reply Ascii.bel s) else .next (reply Ascii.cr s)

/-- `Z` (44_command_protocol.md R232): the line must be exactly two characters. -/
def execSetTimestamp (digit : Option Byte) (extra : List Byte) (s : State) :
    Host.Outcome State Fault Refusal :=
  if (digit.toList ++ extra).length + 1 = 2 then
    match timestampDigit (char (digit.toList ++ extra) s.draws 1) with
    | some b => .next (reply Ascii.cr { s with timestamp := b })
    | none => .next (reply Ascii.bel s)
  else .next (reply Ascii.bel s)

/-- Any other command byte (44_command_protocol.md R234). -/
def execOther (_op : Byte) (_payload : List Byte) (s : State) : Host.Outcome State Fault Refusal :=
  .next (reply Ascii.bel s)

end Sys2Proof.Machine
end

