-- ==== Sys2Proof/Machine/Validator.lean ====
section
/-! DEFINITION. The FrameValidator: pure functions on addresses and frames (41_validator.md). A frame
is the list of its bytes. -/

namespace Sys2Proof.Machine

/-- `parityBits(a)`: P0 and P1 (41_validator.md R160). -/
def parityBits (a : Byte) : Bool × Bool :=
  (xor (xor (xor (a.getLsbD 0) (a.getLsbD 1)) (a.getLsbD 2)) (a.getLsbD 4),
    !(xor (xor (xor (a.getLsbD 1) (a.getLsbD 3)) (a.getLsbD 4)) (a.getLsbD 5)))

/-- `PID(x)`: P0 at bit 6, P1 at bit 7 (41_validator.md R161; the placement PRESUMED, log 10). -/
def pid (x : Byte) : Byte :=
  let a := x &&& 0x3F#8
  let p := parityBits a
  a ||| ((BitVec.ofBool p.1).setWidth 8 <<< 6) ||| ((BitVec.ofBool p.2).setWidth 8 <<< 7)

/-- Fold the carry back into the low byte until none remains; the first argument bounds the folds
(41_validator.md R162). -/
def foldCarry (fuel total : Nat) : Nat :=
  match fuel with
  | 0 => total
  | fuel + 1 => if total > 255 then foldCarry fuel (total % 256 + total / 256) else total

/-- The sum of a sequence as unsigned integers (41_validator.md R162). -/
def byteSum (bytes : List Byte) : Nat := (bytes.map BitVec.toNat).sum

/-- `Checksum(seq)`: fold, then one's complement (41_validator.md R162). -/
def checksum (bytes : List Byte) : Byte :=
  ~~~ BitVec.ofNat 8 (foldCarry (byteSum bytes) (byteSum bytes))

/-- The bytes of a frame that the validator sums (41_validator.md R163). -/
def checksumBytes (includesId : Bool) (f : List Byte) : List Byte :=
  if includesId then f.take (f.length - 1) else (f.take (f.length - 1)).drop 1

/-- `structOK(L)` (41_validator.md R164). -/
def structOk (length : Nat) : Bool :=
  decide (length = 1) || (decide (3 ≤ length) && decide (length ≤ 10))

/-- `isValid(f)` (41_validator.md R165). -/
def isValid (includesId : Bool) (f : List Byte) : Bool :=
  let id := f.getD 0 0x00#8
  structOk f.length && (id == pid id) &&
    (f.length == 1 || checksum (checksumBytes includesId f) == f.getD (f.length - 1) 0x00#8)

end Sys2Proof.Machine
end

