-- ==== Sys2Proof/Machine/Transmitter.lean ====
section
/-! DEFINITION. The Transmitter (43_transmitter.md). -/

namespace Sys2Proof.Machine

/-- The level of a data bit: 1 is high (00_scope.md R12). -/
def levelOf (bit : Bool) : Level := if bit then .high else .low

/-- `TxByte(b)`: start bit, eight data bits LSB first, stop bit (43_transmitter.md R200). -/
def txByte (b : Byte) (s : State) : State :=
  drive .high 1
    ((List.range 8).foldl (fun s k => drive (levelOf (b.getLsbD k)) 1 s) (drive .low 1 s))

/-- One addition of the Transmitter's running sum, folded by subtracting 255 on overflow
(43_transmitter.md R201). -/
def txFold (sum : Nat) (b : Byte) : Nat :=
  if sum + b.toNat > 255 then sum + b.toNat - 255 else sum + b.toNat

/-- `TxChecksum(seq)` (43_transmitter.md R201). -/
def txChecksum (bytes : List Byte) : Byte := ~~~ BitVec.ofNat 8 (bytes.foldl txFold 0)

/-- Break, break delimiter and sync byte, the head of both transmissions (43_transmitter.md R202,
R203). -/
def txBreakSync (s : State) : State :=
  txByte syncValue (drive .high txBreakDelimiterBits (drive .low txBreakBits s))

/-- `TransmitFrame(addr, data)` (43_transmitter.md R202, R204). -/
def transmitFrame (addr : Byte) (data : List Byte) (s : State) : State :=
  let s := disableIrq s
  let p := pid (addr &&& 0x3F#8)
  let c := txChecksum (p :: data)
  let s := txByte p (txBreakSync s)
  let s := data.foldl (fun s d => txByte d s) s
  enableIrq (txByte c s)

/-- `TransmitHeader(addr)`, which no command reaches (43_transmitter.md R203). Log 18. -/
def transmitHeader (addr : Byte) (s : State) : State :=
  let s := disableIrq s
  enableIrq (txByte (pid (addr &&& 0x3F#8)) (txBreakSync s))

end Sys2Proof.Machine
end

