-- ==== Sys2Proof/Machine/Transmit.lean ====
section
/-! DEFINITION. The meaning of the transmit command `t` (44_command_protocol.md R233). -/

namespace Sys2Proof.Machine

/-- `t` (44_command_protocol.md R233): nothing while not connected; the transient fields; nothing more
for a length outside 1..8; else the transmission of these operands and then CR (D38), each an atomic unit of
its own, which the main loop goes on to (20_memory.md R69; `sendFrame`, `replySent`; log 16). The positions
read past the line use up their draws (R224, log 6). -/
def execTransmit (idDigits : List Byte) (lenDigit : Option Byte) (dataDigits ignored : List Byte)
    (s : State) : Host.Outcome State Fault Refusal :=
  if s.connected then
    let payload := transmitPayload idDigits lenDigit dataDigits ignored
    let c := char payload s.draws
    let id12 := idOf (c 1) (c 2) (c 3)
    let n := hexval (c 4)
    let data := dataOf payload s.draws n
    let s := { s with cmdId := id12, cmdDlc := BitVec.ofNat 4 n }
    if dlcValid n then
      .next { s with
        draws := s.draws + staleReads payload (4 + 2 * n)
        task := .transmitting (addressOf id12) data }
    else .next { s with draws := s.draws + staleReads payload 4 }
  else .next s

/-- The transmission of a `t` command, one atomic unit (44_command_protocol.md R233; 20_memory.md R69
(c)). -/
def sendFrame (addr : Byte) (data : List Byte) (s : State) : State :=
  { transmitFrame addr data s with task := .replying }

/-- The reply after the transmission (44_command_protocol.md R233), which ends the command. -/
def replySent (s : State) : State := reply Ascii.cr { s with task := .choosing }

end Sys2Proof.Machine
end

