-- ==== Sys2Proof/Machine/Dispatch.lean ====
section
/-! DEFINITION. One arm per instruction (44_command_protocol.md R223). -/

namespace Sys2Proof.Machine

def exec (i : Instr) (s : State) : Host.Outcome State Fault Refusal :=
  match i with
  | .serialNumber ignored => Sys2Proof.Machine.execSerialNumber ignored s
  | .swVersion ignored => Sys2Proof.Machine.execSwVersion ignored s
  | .hwVersion ignored => Sys2Proof.Machine.execHwVersion ignored s
  | .openSession payload => Sys2Proof.Machine.execOpenSession payload s
  | .closeSession ignored => Sys2Proof.Machine.execCloseSession ignored s
  | .selectBitrate digit ignored => Sys2Proof.Machine.execSelectBitrate digit ignored s
  | .customBitrate payload => Sys2Proof.Machine.execCustomBitrate payload s
  | .setTimestamp digit extra => Sys2Proof.Machine.execSetTimestamp digit extra s
  | .transmit idDigits lenDigit dataDigits ignored => Sys2Proof.Machine.execTransmit idDigits lenDigit dataDigits ignored s
  | .other op payload => Sys2Proof.Machine.execOther op payload s

end Sys2Proof.Machine
end

