-- ==== Sys2Proof/Machine/Forward.lean ====
section
/-! DEFINITION. The HostFrameEncoder and the forwarding path (45_host_forwarding.md). -/

namespace Sys2Proof.Machine

/-- One lowercase hex digit (45_host_forwarding.md R260). -/
def hexDigit (v : Nat) : Byte :=
  if v ≤ 9 then BitVec.ofNat 8 (0x30 + v) else BitVec.ofNat 8 (0x61 + v - 10)

/-- `HexLower(b)`: high nibble first (45_host_forwarding.md R260; the order PRESUMED, log 11). -/
def hexLower (b : Byte) : List Byte :=
  [hexDigit (b.extractLsb' 4 4).toNat, hexDigit (b.extractLsb' 0 4).toNat]

/-- `DataDigit(L)`: the data byte count as one digit, '0' outside 0..8 (45_host_forwarding.md R262). -/
def dataDigit (length : Nat) : Byte :=
  if 2 ≤ length ∧ length - 2 ≤ 8 then BitVec.ofNat 8 (0x30 + (length - 2)) else Ascii.digit0

/-- The text of the byte at index i of a frame (45_host_forwarding.md R261). -/
def encodeByte (length i : Nat) (b : Byte) : List Byte :=
  if i = 1 then [Ascii.space, dataDigit length] ++ hexLower b else hexLower b

/-- `EncodeFrame(f)` (45_host_forwarding.md R261). -/
def encodeFrame (f : List Byte) : List Byte :=
  [Ascii.lowerT] ++ (f.mapIdx (encodeByte f.length)).flatten ++ [Ascii.cr]

/-- `ForwardOne()` up to its pop, one atomic unit (45_host_forwarding.md R263; 20_memory.md R69 (b)): the main
loop has the frame as a copy of its own. -/
def takeFrame (s : State) : State :=
  match pop s with
  | (none, s) => s
  | (some f, s) => { s with task := .forwarding f }

/-- The rest of `ForwardOne()`, one atomic unit (45_host_forwarding.md R263, R264; 20_memory.md R69 (d)). -/
def forwardFrame (f : List Byte) (s : State) : State :=
  let s := { s with task := .choosing }
  if !s.connected && s.params.forwardRequiresConnected then s
  else if isValid s.params.checksumIncludesId f then emit (encodeFrame f) s
  else s

end Sys2Proof.Machine
end

