-- ==== Sys2Proof/Machine/Receiver.lean ====
section
/-! DEFINITION. The Receiver: one BitTimer invocation (40_receiver.md). The bus's draws of one tick are
its sample and the outcomes of the waits it starts. -/

namespace Sys2Proof.Machine

/-- `enter(DetectBreak)` (40_receiver.md R121). -/
def enterDetectBreak (s : State) : State := { s with rxMode := .detectBreak, lowCount := 0 }

/-- `TimerRephase()` (00_scope.md R11, 10_state.md R28). -/
def timerRephase (s : State) : State := { s with timerPhase := .centred }

/-- `enter(ReadData)` and the wait for the sync start bit (40_receiver.md R124). -/
def enterReadData (syncStart : Wait) (s : State) : State :=
  let s := { s with rxMode := .readData, byteCount := 0, bitPos := 0 }
  let s := setSlot s.head { slotAt s.head s with length := 0 } s
  match syncStart with
  | .edge => timerRephase s
  | .timeout => enterDetectBreak s

/-- A tick in DetectBreak (40_receiver.md R122, R123). -/
def detectBreakTick (sample : Level) (breakEnd syncStart : Wait) (s : State) : State :=
  match sample with
  | .high => { s with lowCount := 0 }
  | .low =>
    let s := { s with lowCount := s.lowCount + 1 }
    if s.lowCount = breakLowSamples then
      match breakEnd with
      | .edge => enterReadData syncStart s
      | .timeout => enterDetectBreak s
    else s

/-- The inter-byte wait timed out: the frame ends (40_receiver.md R131). -/
def frameEnd (s : State) : State :=
  if (slotAt s.head s).length.val < 1 then enterDetectBreak (raise .frameTooShort s)
  else enterDetectBreak (handOff s)

/-- Another start bit arrived (40_receiver.md R132). -/
def nextByte (s : State) : State :=
  if (slotAt s.head s).length.val = frameCapacity then enterDetectBreak (raise .frameTooLong s)
  else timerRephase s

/-- The inter-byte wait, in the same invocation (40_receiver.md R130). -/
def interByteWait (w : Wait) (s : State) : State :=
  match w with
  | .timeout => frameEnd s
  | .edge => nextByte s

/-- Bit position 0: the start bit must be low (40_receiver.md R125). -/
def startBitTick (sample : Level) (s : State) : State :=
  match sample with
  | .high => enterDetectBreak (raise (if s.byteCount = 0 then .syncByte else .startBit) s)
  | .low => { s with bitPos := 1 }

/-- One bit of a byte set or cleared. -/
def setBit (b : Byte) (k : Nat) (l : Level) : Byte :=
  match l with
  | .high => b ||| (1#8 <<< k)
  | .low => b &&& ~~~(1#8 <<< k)

/-- Bit positions 1 to 8: the data bits, least significant first (40_receiver.md R126). -/
def dataBitTick (sample : Level) (s : State) : State :=
  { s with acc := setBit s.acc (s.bitPos - 1) sample, bitPos := s.bitPos + 1 }

/-- The first byte of a frame must be the sync value; it is not stored (40_receiver.md R128). -/
def syncByteDone (w : Wait) (s : State) : State :=
  if s.acc ≠ syncValue then enterDetectBreak (raise .syncByte s)
  else interByteWait w { s with byteCount := 1, bitPos := 0 }

/-- A later byte is appended to the frame in progress (40_receiver.md R129). -/
def frameByteDone (w : Wait) (s : State) : State :=
  let s := setSlot s.head (slotAppend s.acc (slotAt s.head s)) s
  interByteWait w { s with byteCount := s.byteCount + 1, bitPos := 0 }

/-- Bit position 9: the stop bit must be high (40_receiver.md R127 to R129). -/
def stopBitTick (sample : Level) (w : Wait) (s : State) : State :=
  match sample with
  | .low => enterDetectBreak (raise (if s.byteCount = 0 then .syncByte else .stopBit) s)
  | .high => if s.byteCount = 0 then syncByteDone w s else frameByteDone w s

/-- A tick in ReadData (40_receiver.md R125 to R129). -/
def readDataTick (sample : Level) (w : Wait) (s : State) : State :=
  if s.bitPos = 0 then startBitTick sample s
  else if s.bitPos ≤ 8 then dataBitTick sample s
  else stopBitTick sample w s

/-- The handler of one tick (40_receiver.md R120). -/
def receiverTick (sample : Level) (first second : Wait) (s : State) : State :=
  match s.rxMode with
  | .detectBreak => detectBreakTick sample first second s
  | .readData => readDataTick sample first s

/-- A BitTimer tick: taken while interrupts are enabled (40_receiver.md R120, 60_exceptions.md R306). -/
def tick (sample : Level) (first second : Wait) (s : State) : State :=
  takeInterrupt (receiverTick sample first second) s

end Sys2Proof.Machine
end

