-- ==== Sys2Proof/Machine/MainLoop.lean ====
section
/-! DEFINITION. The line parser, the main loop's steps, the boot sequence, and one atomic unit
(44_command_protocol.md R220 to R223, 45_host_forwarding.md R265, 70_reset_and_hazards.md R342). -/

namespace Sys2Proof.Machine

/-! ## The line -/

/-- The line as accumulated, `lineBuf[0..lineLen-1]` (30_encoding.md R84). -/
def lineOf (s : State) : List Byte := s.lineBuf.toList.take s.lineLen

/-- Store a character; the 26th resets the line (44_command_protocol.md R222). -/
def onChar (c : Byte) (s : State) : State :=
  if s.lineDiscard then s
  else
    let s := { s with lineBuf := s.lineBuf.set s.lineLen.val c }
    if h : s.lineLen.val + 1 < lineCapacity then { s with lineLen := ⟨s.lineLen.val + 1, h⟩ }
    else { s with lineLen := 0, lineDiscard := s.params.overflowDiscardsRest }

/-- `Dispatch()`: exactly one command rule runs (44_command_protocol.md R223). -/
def dispatch (s : State) : Host.Outcome State Fault Refusal :=
  match decode (lineOf s) with
  | .ok i => exec i s
  | .error why => .refused (.undecodable why)

/-- The line gets its NUL terminator (44_command_protocol.md R221). -/
def terminateLine (s : State) : State :=
  { s with lineBuf := s.lineBuf.set s.lineLen.val Ascii.nul }

/-- The line is used up (44_command_protocol.md R221). -/
def resetLine (s : State) : State := { s with lineLen := 0 }

/-- The line is used up when its command has ended; a `t` command that transmits goes on in later units
(44_command_protocol.md R221; log 16). -/
def endLine (s : State) : State := if s.task = .choosing then resetLine s else s

/-- A terminator: dispatch a line that is not empty (44_command_protocol.md R221). -/
def onTerminator (s : State) : Host.Outcome State Fault Refusal :=
  if s.lineDiscard then .next { s with lineDiscard := false, lineLen := 0 }
  else if s.lineLen = 0 then .next s
  else
    match dispatch (terminateLine s) with
    | .next t => .next (endLine t)
    | .fault r => .fault r
    | .refused r => .refused r

/-- The host byte step (44_command_protocol.md R220). -/
def onHostByte (c : Byte) (s : State) : Host.Outcome State Fault Refusal :=
  if c = Ascii.nul then .next s
  else if c = Ascii.cr ∨ c = Ascii.lf then onTerminator s
  else .next (onChar c s)

/-! ## The main loop's steps (45_host_forwarding.md R265) -/

/-- Step (a): if SerialAvailable(), take one host byte. -/
def serveHost (s : State) : Host.Outcome State Fault Refusal :=
  match s.serialRx with
  | [] => .next s
  | c :: rest => onHostByte c { s with serialRx := rest }

/-- Step (c): the byte read leaves the block (92_eei_decisions.md D22). Log 9. -/
def readErrors (s : State) : State :=
  let r := readAndClearErrors s
  { r.2 with errOut := r.2.errOut ++ [r.1] }

/-- A step of R265 is chosen unless the main loop is still inside a serial write that waits for room
(60_exceptions.md R305, log 7) or between two units of a step (20_memory.md R69, log 16). -/
def whenFree (s : State) (unit : State → Host.Outcome State Fault Refusal) :
    Host.Outcome State Fault Refusal :=
  if s.txPending = [] ∧ s.task = .choosing then unit s else .next s

/-- The next unit of the step the main loop is in (20_memory.md R69): the transmission of a `t` line and
then its CR, or the rest of ForwardOne. -/
def proceed (s : State) : State :=
  if s.txPending = [] then
    match s.task with
    | .choosing => s
    | .transmitting addr data => sendFrame addr data s
    | .replying => resetLine (replySent s)
    | .forwarding f => forwardFrame f s
  else s

/-- One event (20_memory.md R69). -/
def runEvent (e : Event) (s : State) : Host.Outcome State Fault Refusal :=
  match e with
  | .tick sample first second => .next (tick sample first second s)
  | .hostSends b => .next { s with serialRx := s.serialRx ++ [b] }
  | .txQueue room => .next (txDrain { s with txRoom := room })
  | .serveHost => whenFree s serveHost
  | .forward => whenFree s fun s => .next (takeFrame s)
  | .readErrors => whenFree s fun s => .next (readErrors s)
  | .proceed => .next (proceed s)

/-- The next event of the run: the schedule's, or a free one (45_host_forwarding.md R265,
70_reset_and_hazards.md R355). Log 3. -/
def nextEvent (s : State) : Event × State :=
  match s.schedule with
  | e :: rest => (e, { s with schedule := rest })
  | [] => (Config.freeEvent s.draws, { s with draws := s.draws + 1 })

/-! ## Boot -/

/-- One step of the boot sequence (70_reset_and_hazards.md R342; R343 for cfg). -/
def bootStep (s : State) : State :=
  match s.boot with
  | .fieldsReset =>
    { s with cfg := Config.timerCfg s.params.baud s.params.interByteMultiplier, boot := .cfgComputed }
  | .cfgComputed => { s with txLevel := .high, boot := .txReleased }
  | .txReleased => { s with timerPhase := .free, boot := .timerStarted }
  | .timerStarted => { s with irqEnabled := true, boot := .running }
  | .running => s

/-- The rest of the boot sequence at once. -/
def finishBoot (s : State) : State := bootStep (bootStep (bootStep (bootStep s)))

/-- One step of the block: the next boot step, or the next atomic unit. -/
def unitStep (s : State) : Host.Outcome State Fault Refusal :=
  match s.boot with
  | .running => runEvent (nextEvent s).1 (nextEvent s).2
  | .fieldsReset => .next (bootStep s)
  | .cfgComputed => .next (bootStep s)
  | .txReleased => .next (bootStep s)
  | .timerStarted => .next (bootStep s)

/-- The state in which a line stands complete in the line buffer and the main loop's next step reads its
terminator. Log 1. -/
def placeLine (line : List Byte) (s : State) : State :=
  { s with
    lineBuf := Vector.ofFn fun i => line.getD i.val (s.lineBuf.get i)
    lineLen := Fin.ofNat 26 (min line.length maxLine)
    lineDiscard := false
    txPending := []
    task := .choosing
    serialRx := Ascii.cr :: s.serialRx
    schedule := .serveHost :: s.schedule }

end Sys2Proof.Machine
end

