-- ==== Sys2Proof/Machine/Step.lean ====
section
/-! DEFINITION. The step function, and placing a table word where the next step runs it. -/

namespace Sys2Proof.Machine

/-- One step (20_memory.md R69, 70_reset_and_hazards.md R342). -/
def step (s : State) : Host.Outcome State Fault Refusal := unitStep s

/-- The state in which the very next step dispatches the table word's line: booted, the line in the
buffer, its terminator the next host byte, the main loop's next choice to read it. Log 1. -/
def State.withFetchWord (s : State) (nbits w : Nat) : State :=
  placeLine (tableLine nbits w) (finishBoot s)

end Sys2Proof.Machine
end

