-- ==== Sys2Proof/WellFormed.lean ====
section
/-! DEFINITION. Which instructions a host line can carry: the checks behind `decode (encode i) = i`. -/

namespace Sys2Proof

/-- A character the line buffer can hold: NUL is ignored, CR and LF end the line
(44_command_protocol.md R220). -/
def storable (c : Byte) : Bool := c != Ascii.nul && c != Ascii.cr && c != Ascii.lf

/-- The fields of a `t` line follow each other without a gap (30_encoding.md R86): the length digit
comes after three id digits, data after the length digit, ignored characters after all 2n data
digits. -/
def transmitFieldsOk (idDigits : List Byte) (lenDigit : Option Byte)
    (dataDigits ignored : List Byte) : Bool :=
  match lenDigit with
  | none => decide (idDigits.length ≤ 3) && dataDigits.isEmpty && ignored.isEmpty
  | some d =>
    decide (idDigits.length = 3) && decide (dataDigits.length ≤ dataDigitCount d) &&
      (ignored.isEmpty || decide (dataDigits.length = dataDigitCount d))

/-- The fields leave no gap and the command byte selects this row: what follows a missing field is
missing, too, and `other` carries no listed byte (30_encoding.md R85 to R88). -/
def Instr.fieldsOk (i : Instr) : Bool :=
  match i with
  | .serialNumber _ => true
  | .swVersion _ => true
  | .hwVersion _ => true
  | .openSession _ => true
  | .closeSession _ => true
  | .selectBitrate digit ignored => digit.isSome || ignored.isEmpty
  | .customBitrate _ => true
  | .setTimestamp digit extra => digit.isSome || extra.isEmpty
  | .transmit idDigits lenDigit dataDigits ignored =>
    transmitFieldsOk idDigits lenDigit dataDigits ignored
  | .other op _ => !(listedOpcodes.contains op)

/-- The instruction is one that a line of 1 to 25 storable characters carries (30_encoding.md R84, R91;
44_command_protocol.md R222). -/
def Instr.wf (i : Instr) : Bool :=
  decide ((encode i).length ≤ maxLine) && (encode i).all storable && i.fieldsOk

/-- The instruction is one a line can carry. -/
abbrev Instr.WellFormed (i : Instr) : Prop := i.wf = true

end Sys2Proof
end

