-- ==== Sys2Proof/Safety.lean ====
section
/-! DEFINITION. The terms claims use: room in the TX queue, feeding the receiver, producing frames, the
groups of state, and the invariant. -/

namespace Sys2Proof.Machine

/-! ## Serial output -/

/-- The main loop waits for no room and the TX queue takes n more bytes (60_exceptions.md R322). -/
def txTakes (s : State) (n : Nat) : Prop :=
  s.txPending = [] ∧ (match s.txRoom with | .ample => True | .free k => n ≤ k)

/-! ## The bus -/

/-- The ten levels of a byte on the wire (30_encoding.md R80). -/
def wireByte (b : Byte) : List Level :=
  [.low, levelOf (b.getLsbD 0), levelOf (b.getLsbD 1), levelOf (b.getLsbD 2), levelOf (b.getLsbD 3),
    levelOf (b.getLsbD 4), levelOf (b.getLsbD 5), levelOf (b.getLsbD 6), levelOf (b.getLsbD 7), .high]

/-- The levels of a sequence of bytes with no gap (43_transmitter.md R202). -/
def wireBytes (bytes : List Byte) : List Level := (bytes.map wireByte).flatten

/-- Ticks that sample these levels one after the other; every wait they start ends as `w`. -/
def feed (levels : List Level) (w : Wait) (s : State) : State :=
  levels.foldl (fun s l => tick l w w s) s

/-- A frame on the bus as the receiver meets it (95_test_vectors.md section 2): ten low samples, the
sync byte, the frame's bytes, and silence after the last of them. -/
def feedFrame (bytes : List Byte) (last : Byte) (s : State) : State :=
  feed (wireByte last) .timeout
    (feed (wireBytes (syncValue :: bytes)) .edge (feed (List.replicate breakLowSamples .low) .edge s))

/-! ## The ring buffer -/

/-- The producer completes one frame: it stands in the slot at head, then HandOff
(42_ringbuffer_errors.md R181). -/
def produce (f : Slot) (s : State) : State := handOff (setSlot s.head f s)

/-- Frames produced one after the other with no pop in between (42_ringbuffer_errors.md R186). -/
def produceAll (fs : List Slot) (s : State) : State := fs.foldl (fun s f => produce f s) s

/-! ## Groups of state (20_memory.md R74) -/

/-- The Receiver's registers are the same (10_state.md R21). -/
def SameReceiver (s t : State) : Prop :=
  t.rxMode = s.rxMode ∧ t.lowCount = s.lowCount ∧ t.byteCount = s.byteCount ∧ t.bitPos = s.bitPos ∧
    t.acc = s.acc ∧ t.timerPhase = s.timerPhase

/-- The ring buffer and the error byte are the same. -/
def SameRing (s t : State) : Prop :=
  t.slots = s.slots ∧ t.head = s.head ∧ t.tail = s.tail ∧ t.errFlags = s.errFlags

/-- The line accumulation is the same. -/
def SameLine (s t : State) : Prop :=
  t.lineBuf = s.lineBuf ∧ t.lineLen = s.lineLen ∧ t.lineDiscard = s.lineDiscard

/-- The session's flags and fields are the same. -/
def SameSession (s t : State) : Prop :=
  t.connected = s.connected ∧ t.cmdId = s.cmdId ∧ t.cmdDlc = s.cmdDlc ∧ t.timestamp = s.timestamp ∧
    t.bitrateSel = s.bitrateSel

/-- The TX pin is the same. -/
def SamePin (s t : State) : Prop := t.txLevel = s.txLevel ∧ t.txTrace = s.txTrace

/-- The serial output is the same. -/
def SameOutput (s t : State) : Prop :=
  t.hostOut = s.hostOut ∧ t.txPending = s.txPending ∧ t.txRoom = s.txRoom

/-- What no step writes once the block runs (10_state.md R39, 00_scope.md R8). -/
def SameFixed (s t : State) : Prop := t.cfg = s.cfg ∧ t.params = s.params ∧ t.boot = s.boot

/-- What the environment has still to give is the same. -/
def SameInput (s t : State) : Prop := t.serialRx = s.serialRx ∧ t.schedule = s.schedule

/-! ## The invariant -/

/-- What holds at reset and between any two steps. -/
structure Inv (s : State) : Prop where
  /-- fewer than ten low samples are counted while a break is looked for (10_state.md R24) -/
  lowCount_detect : s.rxMode = .detectBreak → s.lowCount < breakLowSamples
  /-- a frame is read only after a break (40_receiver.md R123) -/
  lowCount_read : s.rxMode = .readData → s.lowCount = breakLowSamples
  /-- 10_state.md R26 -/
  bitPos_le : s.bitPos ≤ 9
  /-- 10_state.md R25 -/
  byteCount_le : s.byteCount ≤ 11
  /-- the sync byte is not stored (40_receiver.md R128) -/
  frame_empty : s.rxMode = .readData → s.byteCount = 0 → (slotAt s.head s).length.val = 0
  /-- every later byte is stored, and there is room for the next one (20_memory.md R61) -/
  frame_counts : s.rxMode = .readData → 1 ≤ s.byteCount →
    (slotAt s.head s).length.val + 1 = s.byteCount ∧ (slotAt s.head s).length.val ≤ 9
  /-- a frame is sampled at bit centres (10_state.md R28) -/
  centred : s.rxMode = .readData → s.timerPhase = .centred
  /-- every frame handed off has 1 to 10 bytes (40_receiver.md R134) -/
  waiting_length : ∀ f ∈ waiting s, 1 ≤ f.length ∧ f.length ≤ 10
  /-- bits 6 and 7 are never set (10_state.md R32) -/
  flags_reserved : s.errFlags &&& 0xC0#8 = 0x00#8
  /-- the line holds no NUL, CR or LF (44_command_protocol.md R220) -/
  line_storable : ∀ c ∈ lineOf s, storable c = true
  /-- 10_state.md R44 -/
  discard_enabled : s.lineDiscard = true →
    s.params.overflowDiscardsRest = true ∧ s.lineLen = 0
  /-- 10_state.md R38 -/
  bitrate_known : ∀ d, s.bitrateSel = some d → d ≤ 8 ∧ d ≠ 7
  /-- the line idles high between transmissions (43_transmitter.md R205) -/
  tx_high : s.txLevel = .high
  /-- interrupts are disabled inside units and before boot only (60_exceptions.md R308, R342) -/
  irq_open : s.irqEnabled = decide (s.boot = .running)
  /-- no tick is taken before boot ends (70_reset_and_hazards.md R342) -/
  boot_idle : s.boot ≠ .running → s.rxMode = .detectBreak
  /-- a transmission to come is that of a connected session, with 1 to 8 data bytes
  (44_command_protocol.md R233) -/
  task_sends : ∀ addr data, s.task = .transmitting addr data →
    s.connected = true ∧ 1 ≤ data.length ∧ data.length ≤ 8
  /-- a frame the main loop has taken has 1 to 10 bytes (40_receiver.md R134) -/
  task_frame : ∀ f, s.task = .forwarding f → 1 ≤ f.length ∧ f.length ≤ 10
  /-- the line of a `t` command stands until its reply (44_command_protocol.md R221) -/
  task_line : (s.task = .replying ∨ ∃ addr data, s.task = .transmitting addr data) →
    ∃ a b c d, decode (lineOf s) = .ok (.transmit a b c d)
  /-- the main loop is inside no step before boot ends (70_reset_and_hazards.md R342) -/
  task_idle : s.boot ≠ .running → s.task = .choosing
  /-- the main loop is between two units only when it waits in no write (20_memory.md R69) -/
  task_free : s.txPending ≠ [] → s.task = .choosing
  /-- the main loop waits only under TX_FULL_POLICY = block and for a full queue (60_exceptions.md
  R305) -/
  pending_blocked : s.txPending ≠ [] → s.params.txFullPolicy = .block ∧ s.txRoom = .free 0

end Sys2Proof.Machine
end

