-- ==== Sys2Proof/Certificates/Slice0/Obligations.lean ====
section
/-! DEFINITION. The statements for the provers. Each docstring names the rule it formalises; a clause that
rests on a decision of 92_eei_decisions.md or on the model's log says so. -/

open Sys2Proof Sys2Proof.Machine

/-! ## Encoding -/

/-- The table words of the ten rows, and two lines written out from 30_encoding.md R85 to R87. -/
def Obligations.TableWordsDecodeToTheirRows : Prop :=
  decodeTableWord 8 0x4E = some (.serialNumber []) ∧
  decodeTableWord 8 0x76 = some (.swVersion []) ∧
  decodeTableWord 8 0x56 = some (.hwVersion []) ∧
  decodeTableWord 8 0x4F = some (.openSession []) ∧
  decodeTableWord 8 0x43 = some (.closeSession []) ∧
  decodeTableWord 8 0x53 = some (.selectBitrate none []) ∧
  decodeTableWord 8 0x73 = some (.customBitrate []) ∧
  decodeTableWord 8 0x5A = some (.setTimestamp none []) ∧
  decodeTableWord 8 0x74 = some (.transmit [] none [] []) ∧
  decodeTableWord 8 0x58 = some (.other 0x58#8 []) ∧
  decode [0x53#8, 0x34#8, 0x35#8] = .ok (.selectBitrate (some 0x34#8) [0x35#8]) ∧
  decode [0x74#8, 0x30#8, 0x30#8, 0x41#8, 0x31#8, 0x42#8, 0x42#8, 0x43#8] =
    .ok (.transmit [0x30#8, 0x30#8, 0x41#8] (some 0x31#8) [0x42#8, 0x42#8] [0x43#8])

/-- Decoding the line of a well-formed instruction gives it back, with every operand. -/
def Obligations.DecodeInvertsEncode : Prop :=
  ∀ i : Instr, i.WellFormed → decode (encode i) = .ok i

/-- A line is the encoding of what it decodes to: decoding drops no character. -/
def Obligations.EncodeInvertsDecode : Prop :=
  ∀ (line : List Byte) (i : Instr), decode line = .ok i → encode i = line

/-- Every line the parser can dispatch (1 to 25 characters, none of them NUL, CR or LF) is a well-formed
instruction: no encoding traps (30_encoding.md R90, R91). -/
def Obligations.EveryStorableLineIsWellFormed : Prop :=
  ∀ line : List Byte, 1 ≤ line.length → line.length ≤ 25 → (∀ c ∈ line, storable c = true) →
    ∃ i, decode line = .ok i ∧ i.WellFormed

/-- The command byte selects exactly one row, and every byte not listed selects the last row
(30_encoding.md R85). -/
def Obligations.UnlistedOpcodeIsOther : Prop :=
  ∀ (op : Byte) (payload : List Byte), payload.length ≤ 24 →
    ((∃ o p, decode (op :: payload) = .ok (.other o p)) ↔ op ∉ listedOpcodes)

/-- Hex digits decode by R89; anything else is 0. -/
def Obligations.HexDigitsDecode : Prop :=
  ∀ c : Byte,
    (0x30 ≤ c.toNat → c.toNat ≤ 0x39 → hexval c = c.toNat - 0x30) ∧
    (0x41 ≤ c.toNat → c.toNat ≤ 0x46 → hexval c = c.toNat - 0x41 + 10) ∧
    (0x61 ≤ c.toNat → c.toNat ≤ 0x66 → hexval c = c.toNat - 0x61 + 10) ∧
    (¬(0x30 ≤ c.toNat ∧ c.toNat ≤ 0x39) → ¬(0x41 ≤ c.toNat ∧ c.toNat ≤ 0x46) →
      ¬(0x61 ≤ c.toNat ∧ c.toNat ≤ 0x66) → hexval c = 0)

/-! ## Receiver -/

/-- A high sample while a break is looked for restarts the count (40_receiver.md R122). -/
def Obligations.HighSampleRestartsBreakCount : Prop :=
  ∀ (s : State) (w1 w2 : Wait), s.irqEnabled = true → s.rxMode = .detectBreak →
    tick .high w1 w2 s = { s with lowCount := 0 }

/-- A low sample counts, and the tenth recognises the break: the next state of every outcome of the two
waits (40_receiver.md R123, R124). What the two timeouts do is D5 and D6, clearing the count D9. -/
def Obligations.TenthLowSampleRecognisesBreak : Prop :=
  ∀ (s : State) (w1 w2 : Wait), s.irqEnabled = true → s.rxMode = .detectBreak →
    (s.lowCount + 1 ≠ 10 → tick .low w1 w2 s = { s with lowCount := s.lowCount + 1 }) ∧
    (s.lowCount + 1 = 10 → w1 = .timeout → tick .low w1 w2 s = { s with lowCount := 0 }) ∧
    (s.lowCount + 1 = 10 → w1 = .edge → w2 = .edge →
      tick .low w1 w2 s =
        { s with
          lowCount := 10, rxMode := .readData, byteCount := 0, bitPos := 0, timerPhase := .centred
          slots := s.slots.set s.head { slotAt s.head s with length := 0 } }) ∧
    (s.lowCount + 1 = 10 → w1 = .edge → w2 = .timeout →
      tick .low w1 w2 s =
        { s with
          lowCount := 0, byteCount := 0, bitPos := 0
          slots := s.slots.set s.head { slotAt s.head s with length := 0 } })

/-- The start bit of a byte (40_receiver.md R125). The error's bit is D2, clearing the count D9. -/
def Obligations.StartBitMustBeLow : Prop :=
  ∀ (s : State) (w1 w2 : Wait), s.irqEnabled = true → s.rxMode = .readData → s.bitPos = 0 →
    tick .low w1 w2 s = { s with bitPos := 1 } ∧
    (s.byteCount = 0 → tick .high w1 w2 s =
      { s with errFlags := s.errFlags ||| 0x10#8, rxMode := .detectBreak, lowCount := 0 }) ∧
    (s.byteCount ≠ 0 → tick .high w1 w2 s =
      { s with errFlags := s.errFlags ||| 0x04#8, rxMode := .detectBreak, lowCount := 0 })

/-- A data bit writes bit `bitPos - 1` of the accumulator and nothing else of it (40_receiver.md R126). -/
def Obligations.DataBitWritesAccumulatorBit : Prop :=
  ∀ (s : State) (l : Level) (w1 w2 : Wait) (k : Nat), s.irqEnabled = true → s.rxMode = .readData →
    s.bitPos = k → 1 ≤ k → k ≤ 8 →
    ∃ a : Byte, tick l w1 w2 s = { s with acc := a, bitPos := k + 1 } ∧
      ∀ j : Nat, j < 8 → a.getLsbD j = if j = k - 1 then l == .high else s.acc.getLsbD j

/-- A low stop bit (40_receiver.md R127). The error's bit is D2, clearing the count D9. -/
def Obligations.StopBitMustBeHigh : Prop :=
  ∀ (s : State) (w1 w2 : Wait), s.irqEnabled = true → s.rxMode = .readData → s.bitPos = 9 →
    (s.byteCount = 0 → tick .low w1 w2 s =
      { s with errFlags := s.errFlags ||| 0x10#8, rxMode := .detectBreak, lowCount := 0 }) ∧
    (s.byteCount ≠ 0 → tick .low w1 w2 s =
      { s with errFlags := s.errFlags ||| 0x08#8, rxMode := .detectBreak, lowCount := 0 })

/-- The first byte must be the sync value; then the inter-byte wait decides (40_receiver.md R128, R131,
R132). That the wait follows the sync byte is D4, the error's bit D2, clearing the count D9. The slot is
empty, as the invariant says. -/
def Obligations.SyncByteIsCheckedNotStored : Prop :=
  ∀ (s : State) (w1 w2 : Wait), s.irqEnabled = true → s.rxMode = .readData → s.bitPos = 9 →
    s.byteCount = 0 → (slotAt s.head s).length.val = 0 →
    (s.acc ≠ 0x55#8 → tick .high w1 w2 s =
      { s with errFlags := s.errFlags ||| 0x10#8, rxMode := .detectBreak, lowCount := 0 }) ∧
    (s.acc = 0x55#8 → w1 = .edge → tick .high w1 w2 s =
      { s with byteCount := 1, bitPos := 0, timerPhase := .centred }) ∧
    (s.acc = 0x55#8 → w1 = .timeout → tick .high w1 w2 s =
      { s with
        byteCount := 1, bitPos := 0, errFlags := s.errFlags ||| 0x01#8
        rxMode := .detectBreak, lowCount := 0 })

/-- A later byte is appended to the slot at head; then the inter-byte wait hands the frame off, goes on
to the next byte, or drops a frame of ten bytes (40_receiver.md R129 to R132). The error's bit is D2,
clearing the count D9. -/
def Obligations.FrameByteIsAppended : Prop :=
  ∀ (s : State) (w1 w2 : Wait) (n : Nat), s.irqEnabled = true → s.rxMode = .readData →
    s.bitPos = 9 → 1 ≤ s.byteCount → (slotAt s.head s).length.val = n → n ≤ 9 →
    ∃ f : Slot, f.length.val = n + 1 ∧
      slotFrame f = slotFrame (slotAt s.head s) ++ [s.acc] ∧
      (w1 = .timeout → tick .high w1 w2 s =
        { handOff { s with
            slots := s.slots.set s.head f, byteCount := s.byteCount + 1, bitPos := 0 } with
          rxMode := .detectBreak, lowCount := 0 }) ∧
      (w1 = .edge → n < 9 → tick .high w1 w2 s =
        { s with
          slots := s.slots.set s.head f, byteCount := s.byteCount + 1, bitPos := 0
          timerPhase := .centred }) ∧
      (w1 = .edge → n = 9 → tick .high w1 w2 s =
        { s with
          slots := s.slots.set s.head f, byteCount := s.byteCount + 1, bitPos := 0
          errFlags := s.errFlags ||| 0x02#8, rxMode := .detectBreak, lowCount := 0 })

/-- While interrupts are disabled a tick runs nothing (40_receiver.md R120; no tick is kept: log 15). -/
def Obligations.MaskedTickRunsNothing : Prop :=
  ∀ (s : State) (l : Level) (w1 w2 : Wait), s.irqEnabled = false → tick l w1 w2 s = s

/-- At most one error kind is raised per tick (60_exceptions.md R310), never bits 6 and 7
(10_state.md R32). -/
def Obligations.TickRaisesAtMostOneKind : Prop :=
  ∀ (s : State) (l : Level) (w1 w2 : Wait),
    (tick l w1 w2 s).errFlags = s.errFlags ∨
      ∃ k : RxError, k ≠ .other ∧ (tick l w1 w2 s).errFlags = s.errFlags ||| errMask k

/-- Every receiver error is followed in the same tick by DetectBreak with a fresh count
(60_exceptions.md R303; clearing the count is D9), an error whose bit is already set included
(42_ringbuffer_errors.md R183): a tick raises an error exactly when it sets a bit of a cleared byte. -/
def Obligations.ErrorResynchronisesInSameTick : Prop :=
  ∀ (s : State) (l : Level) (w1 w2 : Wait),
    (tick l w1 w2 { s with errFlags := 0x00#8 }).errFlags ≠ 0x00#8 →
    (tick l w1 w2 s).rxMode = .detectBreak ∧ (tick l w1 w2 s).lowCount = 0 ∧
    (tick l w1 w2 s).errFlags =
      s.errFlags ||| (tick l w1 w2 { s with errFlags := 0x00#8 }).errFlags

/-- The handler writes only what the interrupt context owns: every main-loop field is unchanged
(60_exceptions.md R314, 20_memory.md R74), every slot but the one at head is unchanged, and the indices
move only in a hand-off, which a frame of at least one byte ends. -/
def Obligations.TickTouchesOnlyInterruptState : Prop :=
  ∀ (s : State) (l : Level) (w1 w2 : Wait),
    SameLine s (tick l w1 w2 s) ∧ SameSession s (tick l w1 w2 s) ∧ SamePin s (tick l w1 w2 s) ∧
    SameOutput s (tick l w1 w2 s) ∧ SameFixed s (tick l w1 w2 s) ∧ SameInput s (tick l w1 w2 s) ∧
    (tick l w1 w2 s).irqEnabled = s.irqEnabled ∧ (tick l w1 w2 s).errOut = s.errOut ∧
    (tick l w1 w2 s).draws = s.draws ∧ (tick l w1 w2 s).task = s.task ∧
    (∀ k : Fin 8, k ≠ s.head → slotAt k (tick l w1 w2 s) = slotAt k s) ∧
    ((tick l w1 w2 s).head = s.head ∨
      ((tick l w1 w2 s).head = s.head + 1 ∧ 1 ≤ (slotAt s.head (tick l w1 w2 s)).length.val)) ∧
    ((tick l w1 w2 s).tail = s.tail ∨
      ((tick l w1 w2 s).tail = s.tail + 1 ∧ (tick l w1 w2 s).head = s.tail))

/-- The ten levels the Transmitter drives for a byte (43_transmitter.md R200), sampled by the Receiver,
append exactly that byte to the frame in progress (40_receiver.md R125, R126, R129; 20_memory.md R62). -/
def Obligations.ReceiverReadsTransmittedByte : Prop :=
  ∀ (s u : State) (b : Byte) (n : Nat), s.irqEnabled = true → s.rxMode = .readData →
    s.bitPos = 0 → 1 ≤ s.byteCount → (slotAt s.head s).length.val = n → n ≤ 8 →
    (txByte b u).txTrace = u.txTrace ++ wireByte b ∧
    ∃ f : Slot, f.length.val = n + 1 ∧ slotFrame f = slotFrame (slotAt s.head s) ++ [b] ∧
      feed (wireByte b) .edge s =
        { s with
          slots := s.slots.set s.head f, acc := b, byteCount := s.byteCount + 1, bitPos := 0
          timerPhase := .centred }

/-- End to end (95_test_vectors.md L1-7, for every identifier and data): the bytes TransmitFrame sends,
met by an idle Receiver, become exactly one waiting frame, whole and valid, with no error but an overrun
of a full buffer. -/
def Obligations.TransmittedFrameIsReceivedWhole : Prop :=
  ∀ (s : State) (a : Byte) (data : List Byte), s.irqEnabled = true → s.rxMode = .detectBreak →
    s.lowCount = 0 → 1 ≤ data.length → data.length ≤ 8 →
    ∃ t : State,
      t = feedFrame (pid (a &&& 0x3F#8) :: data) (txChecksum (pid (a &&& 0x3F#8) :: data)) s ∧
      t.head = s.head + 1 ∧
      slotFrame (slotAt s.head t) =
        pid (a &&& 0x3F#8) :: data ++ [txChecksum (pid (a &&& 0x3F#8) :: data)] ∧
      isValid true (slotFrame (slotAt s.head t)) = true ∧
      t.rxMode = .detectBreak ∧ t.lowCount = 0 ∧
      (s.head + 1 ≠ s.tail → t.errFlags = s.errFlags ∧ t.tail = s.tail) ∧
      (s.head + 1 = s.tail → t.errFlags = s.errFlags ||| 0x20#8 ∧ t.tail = s.tail + 1)

/-! ## Ring buffer and error byte -/

/-- HandOff, with its frame (42_ringbuffer_errors.md R181). The overrun bit's position is D2. -/
def Obligations.HandOffDropsOldestOnCollision : Prop :=
  ∀ s : State,
    (s.head + 1 ≠ s.tail → handOff s = { s with head := s.head + 1 }) ∧
    (s.head + 1 = s.tail → handOff s =
      { s with head := s.head + 1, tail := s.tail + 1, errFlags := s.errFlags ||| 0x20#8 })

/-- Pop takes the oldest waiting frame and leaves the others (42_ringbuffer_errors.md R180, R182). The
mask is open afterwards (D27). -/
def Obligations.PopTakesOldestWaiting : Prop :=
  ∀ s : State,
    (s.head = s.tail ↔ waiting s = []) ∧
    (s.head = s.tail → pop s = (none, { s with irqEnabled := true })) ∧
    (s.head ≠ s.tail → ∃ f, pop s = (some f, { s with irqEnabled := true, tail := s.tail + 1 }) ∧
      waiting s = f :: waiting (pop s).2)

/-- The consumer never reads the slot in progress: Pop's answer does not depend on it
(42_ringbuffer_errors.md R185). -/
def Obligations.PopIgnoresSlotInProgress : Prop :=
  ∀ (s : State) (f : Slot), (pop (setSlot s.head f s)).1 = (pop s).1

/-- FIFO and overrun (42_ringbuffer_errors.md R186): from an empty buffer, frames handed off with no pop
leave the seven most recent ones, in production order, and raise BufferOverrun exactly when more than
seven were handed off (its bit is D2). -/
def Obligations.RingKeepsSevenMostRecent : Prop :=
  ∀ (s : State) (fs : List Slot), s.head = s.tail →
    waiting (produceAll fs s) = (fs.drop (fs.length - 7)).map slotFrame ∧
    (produceAll fs s).errFlags =
      (if fs.length ≤ 7 then s.errFlags else s.errFlags ||| 0x20#8)

/-- Raising ORs one bit in (42_ringbuffer_errors.md R183) at the position D2 gives the kind
(10_state.md R32), so errors of one kind coalesce; reading returns the byte and clears it
(42_ringbuffer_errors.md R184), with the mask open afterwards (D27). -/
def Obligations.ErrorByteIsStickyUntilRead : Prop :=
  ∀ s : State,
    (∀ k : RxError, raise k s = { s with errFlags := s.errFlags ||| errMask k } ∧
      raise k (raise k s) = raise k s) ∧
    readAndClearErrors s = (s.errFlags, { s with errFlags := 0x00#8, irqEnabled := true }) ∧
    [errMask .frameTooShort, errMask .frameTooLong, errMask .startBit, errMask .stopBit,
      errMask .syncByte, errMask .bufferOverrun, errMask .other] =
      [0x01#8, 0x02#8, 0x04#8, 0x08#8, 0x10#8, 0x20#8, 0x40#8]

/-! ## Validator and Transmitter -/

/-- The parity bits' formulas (41_validator.md R160) at the places D3 gives them (R161), idempotence and
the kept address (95_test_vectors.md L1-1). -/
def Obligations.PidCarriesParityOfAddress : Prop :=
  ∀ x : Byte,
    (∀ j : Nat, j < 6 → (pid x).getLsbD j = x.getLsbD j) ∧
    (pid x).getLsbD 6 =
      (x.getLsbD 0 ^^ x.getLsbD 1 ^^ x.getLsbD 2 ^^ x.getLsbD 4) ∧
    (pid x).getLsbD 7 =
      !(x.getLsbD 1 ^^ x.getLsbD 3 ^^ x.getLsbD 4 ^^ x.getLsbD 5) ∧
    pid (pid x) = pid x

/-- The checksum's closed form (41_validator.md R162): for a nonzero total the folded sum is one more
than the total less one mod 255. -/
def Obligations.ChecksumHasClosedForm : Prop :=
  ∀ bytes : List Byte,
    (checksum bytes).toNat =
      if byteSum bytes = 0 then 255 else 255 - ((byteSum bytes - 1) % 255 + 1)

/-- The validator's repeated fold and the Transmitter's fold after each addition (that it follows each
addition is D34) give the same checksum of every sequence (41_validator.md R166). -/
def Obligations.ValidatorAndTransmitterChecksumsAgree : Prop :=
  ∀ bytes : List Byte, checksum bytes = txChecksum bytes

/-- Every frame the Transmitter sends passes isValid when the identifier is summed (41_validator.md
R166), and a data byte changed otherwise than between 0x00 and 0xFF makes it fail (90_conflicts.md
C14). -/
def Obligations.TransmittedFramesAreValid : Prop :=
  ∀ (a : Byte) (before after : List Byte) (d e : Byte),
    before.length + after.length ≤ 7 →
    isValid true (pid a :: before ++ d :: after ++
      [txChecksum (pid a :: before ++ d :: after)]) = true ∧
    (d ≠ e → ¬(d = 0x00#8 ∧ e = 0xFF#8) → ¬(d = 0xFF#8 ∧ e = 0x00#8) →
      isValid true (pid a :: before ++ e :: after ++
        [txChecksum (pid a :: before ++ d :: after)]) = false)

/-- isValid is the conjunction of structure, parity and checksum (41_validator.md R164, R165, R163; the
parameter's default is D10). -/
def Obligations.IsValidIsStructureParityChecksum : Prop :=
  ∀ (includesId : Bool) (f : List Byte),
    (isValid includesId f = true ↔
      (f.length = 1 ∨ (3 ≤ f.length ∧ f.length ≤ 10)) ∧
      (∃ id rest, f = id :: rest ∧ id = pid id ∧
        (rest = [] ∨ ∃ data c, rest = data ++ [c] ∧
          c = checksum (if includesId then id :: data else data))))

/-- A full frame's waveform and frame (43_transmitter.md R202, R205, R206): break, delimiter, sync, PID,
data, checksum, no gaps (D26), 44 + 10n bit periods, the line high and the mask open at the end (D27),
nothing else written. -/
def Obligations.TransmitFrameWaveform : Prop :=
  ∀ (addr : Byte) (data : List Byte) (s : State), ∃ levels : List Level,
    transmitFrame addr data s =
      { s with txTrace := s.txTrace ++ levels, txLevel := .high, irqEnabled := true } ∧
    levels = List.replicate 13 .low ++ [.high] ++
      wireBytes ([0x55#8, pid (addr &&& 0x3F#8)] ++ data ++
        [txChecksum (pid (addr &&& 0x3F#8) :: data)]) ∧
    levels.length = 44 + 10 * data.length

/-- The header-only transmission (43_transmitter.md R203), which no command reaches. -/
def Obligations.TransmitHeaderWaveform : Prop :=
  ∀ (addr : Byte) (s : State), ∃ levels : List Level,
    transmitHeader addr s =
      { s with txTrace := s.txTrace ++ levels, txLevel := .high, irqEnabled := true } ∧
    levels = List.replicate 13 .low ++ [.high] ++ wireBytes [0x55#8, pid (addr &&& 0x3F#8)] ∧
    levels.length = 34

/-! ## Commands: each answers a next state, and which -/

/-- `N`, `v` and `V` reply their fixed strings (44_command_protocol.md R225 to R227), whatever the
payload (D18). -/
def Obligations.VersionCommandsReplyTheirStrings : Prop :=
  ∀ (p : List Byte) (s : State),
    exec (.serialNumber p) s = .next (emit s.params.serialString s) ∧
    exec (.swVersion p) s = .next (emit s.params.swVersionString s) ∧
    exec (.hwVersion p) s = .next (emit s.params.hwVersionString s)

/-- `O` connects and replies CR when the line has length 1, else BEL (44_command_protocol.md R228; the
BEL is D14). -/
def Obligations.OpenConnectsWithoutPayload : Prop :=
  ∀ (p : List Byte) (s : State),
    (p = [] → exec (.openSession p) s = .next (emit [0x0D#8] { s with connected := true })) ∧
    (p ≠ [] → exec (.openSession p) s = .next (emit [0x07#8] s))

/-- `C` disconnects and replies CR (44_command_protocol.md R229). -/
def Obligations.CloseDisconnects : Prop :=
  ∀ (p : List Byte) (s : State),
    exec (.closeSession p) s = .next (emit [0x0D#8] { s with connected := false })

/-- `S` records an accepted digit (44_command_protocol.md R230, 30_encoding.md R87). That the digit is
compared as a character and only recorded is D15. -/
def Obligations.SelectBitrateRecordsDigit : Prop :=
  ∀ (c : Byte) (rest : List Byte) (s : State),
    (s.connected = true → ∀ digit ignored,
      exec (.selectBitrate digit ignored) s = .next (emit [0x07#8] s)) ∧
    (s.connected = false →
      (c ∈ [0x30#8, 0x31#8, 0x32#8, 0x33#8, 0x34#8, 0x35#8, 0x36#8, 0x38#8] →
        exec (.selectBitrate (some c) rest) s =
          .next (emit [0x0D#8] { s with bitrateSel := some (c.toNat - 0x30) })) ∧
      (c ∉ [0x30#8, 0x31#8, 0x32#8, 0x33#8, 0x34#8, 0x35#8, 0x36#8, 0x38#8] →
        exec (.selectBitrate (some c) rest) s = .next (emit [0x07#8] s)) ∧
      exec (.selectBitrate none []) s = .next (emit [0x07#8] s))

/-- `s` is accepted without effect (44_command_protocol.md R231). -/
def Obligations.CustomBitrateIsInert : Prop :=
  ∀ (p : List Byte) (s : State),
    (s.connected = true → exec (.customBitrate p) s = .next (emit [0x07#8] s)) ∧
    (s.connected = false → exec (.customBitrate p) s = .next (emit [0x0D#8] s))

/-- `Z` sets the flag to its digit, whether connected or not (44_command_protocol.md R232). That it sets
rather than toggles is D16. -/
def Obligations.TimestampTakesDigit : Prop :=
  ∀ (c : Byte) (extra : List Byte) (s : State),
    exec (.setTimestamp (some 0x30#8) []) s = .next (emit [0x0D#8] { s with timestamp := false }) ∧
    exec (.setTimestamp (some 0x31#8) []) s = .next (emit [0x0D#8] { s with timestamp := true }) ∧
    (c ≠ 0x30#8 → c ≠ 0x31#8 → exec (.setTimestamp (some c) []) s = .next (emit [0x07#8] s)) ∧
    (extra ≠ [] → exec (.setTimestamp (some c) extra) s = .next (emit [0x07#8] s)) ∧
    exec (.setTimestamp none []) s = .next (emit [0x07#8] s)

/-- Any other command byte gets BEL and changes nothing else (44_command_protocol.md R234). -/
def Obligations.UnknownCommandGetsBel : Prop :=
  ∀ (op : Byte) (p : List Byte) (s : State), exec (.other op p) s = .next (emit [0x07#8] s)

/-- `t` on a complete line (30_encoding.md R86, 44_command_protocol.md R233): the fields are recorded and the
transmission is the main loop's next unit, after which its CR is the last one (20_memory.md R69; that these
three are units of their own is log 16), and then the line is used up (44_command_protocol.md R221). Digit
order is D13, the order of effect and reply D38, the characters after the data D17. -/
def Obligations.TransmitCommandSendsFrame : Prop :=
  ∀ (c1 c2 c3 c4 : Byte) (pairs : List (Byte × Byte)) (ignored : List Byte) (s : State),
    s.connected = true → hexval c4 = pairs.length → 1 ≤ pairs.length → pairs.length ≤ 8 →
    ∃ (addr : Byte) (data : List Byte) (t : State),
      addr = BitVec.ofNat 8 ((hexval c1 * 256 + hexval c2 * 16 + hexval c3) % 64) ∧
      data = (pairs.map fun p => BitVec.ofNat 8 (hexval p.1 * 16 + hexval p.2)) ∧
      t = { s with
        cmdId := BitVec.ofNat 12 (hexval c1 * 256 + hexval c2 * 16 + hexval c3)
        cmdDlc := BitVec.ofNat 4 pairs.length
        task := .transmitting addr data } ∧
      exec (.transmit [c1, c2, c3] (some c4) (pairs.flatMap fun p => [p.1, p.2]) ignored) s =
        .next t ∧
      (s.txPending = [] →
        proceed t = { transmitFrame addr data t with task := .replying } ∧
        proceed (proceed t) =
          { emit [0x0D#8] { transmitFrame addr data t with task := .choosing } with lineLen := 0 })

/-- `Char(i)` (44_command_protocol.md R224): the line's character, the NUL at position L, and past it a
free value, another draw for each position (D12, log 6). The line is the command byte and `payload`. -/
def Obligations.CharReadsLineThenNulThenDraws : Prop :=
  ∀ (payload : List Byte) (draws i : Nat),
    (∀ c, payload[i]? = some c → char payload draws (i + 1) = c) ∧
    char payload draws (payload.length + 1) = 0x00#8 ∧
    char payload draws (payload.length + 2 + i) = Config.staleChar (draws + i)

/-- `t` on a line of any length while connected (44_command_protocol.md R233, 30_encoding.md R86): every
position is read by Char, so a short line transmits draws (D12, log 6). The transmission and the CR are the
main loop's next units (log 16; TransmitCommandSendsFrame and StepTakesNextEvent say what they do). Digit
order is D13. -/
def Obligations.TransmitCommandOnAnyLine : Prop :=
  ∀ (ids data ignored : List Byte) (len : Option Byte) (s : State) (c : Nat → Byte) (n : Nat),
    s.connected = true → c = char (ids ++ len.toList ++ data ++ ignored) s.draws →
    n = hexval (c 4) →
    (1 ≤ n → n ≤ 8 → ∃ used,
      exec (.transmit ids len data ignored) s =
        .next { s with
          cmdId := BitVec.ofNat 12 (hexval (c 1) * 256 + hexval (c 2) * 16 + hexval (c 3))
          cmdDlc := BitVec.ofNat 4 n
          draws := s.draws + used
          task := .transmitting
            (BitVec.ofNat 8 ((hexval (c 1) * 256 + hexval (c 2) * 16 + hexval (c 3)) % 64))
            ((List.range n).map fun i =>
              BitVec.ofNat 8 (hexval (c (5 + 2 * i)) * 16 + hexval (c (6 + 2 * i)))) }) ∧
    (n = 0 ∨ n > 8 → ∃ used,
      exec (.transmit ids len data ignored) s =
        .next { s with
          cmdId := BitVec.ofNat 12 (hexval (c 1) * 256 + hexval (c 2) * 16 + hexval (c 3))
          cmdDlc := BitVec.ofNat 4 n
          draws := s.draws + used })

/-- `t` is silent while not connected, and for a length digit outside 1..8 (44_command_protocol.md R233).
The transient fields are written only while connected (D17). -/
def Obligations.TransmitCommandIsSilentOnBadLength : Prop :=
  ∀ (c1 c2 c3 c4 : Byte) (data ignored : List Byte) (s : State),
    (s.connected = false → ∀ ids len,
      exec (.transmit ids len data ignored) s = .next s) ∧
    (s.connected = true → (hexval c4 = 0 ∨ hexval c4 > 8) →
      exec (.transmit [c1, c2, c3] (some c4) data ignored) s =
        .next { s with
          cmdId := BitVec.ofNat 12 (hexval c1 * 256 + hexval c2 * 16 + hexval c3)
          cmdDlc := BitVec.ofNat 4 (hexval c4) }) ∧
    (s.connected = true →
      exec (.transmit [c1, c2, c3] none [] []) s =
        .next { s with
          cmdId := BitVec.ofNat 12 (hexval c1 * 256 + hexval c2 * 16 + hexval c3)
          cmdDlc := 0#4 })

/-- What a command leaves unchanged, whatever its form: the Receiver, the ring buffer, the error byte
(44_command_protocol.md R236), the line, the fixed fields, the inputs, the TX pin and the mask (a `t` line's
transmission is a unit of its own: log 16, TransmitFrameWaveform); `connected` unless it is `O` or `C`;
`bitrateSel` unless `S`; `timestamp` unless `Z`; the transient fields, the draws and the main loop's place
unless `t`. -/
def Obligations.CommandsWriteOnlyTheirFields : Prop :=
  ∀ (i : Instr) (s t : State), exec i s = .next t →
    SameReceiver s t ∧ SameRing s t ∧ SameLine s t ∧ SameFixed s t ∧ SameInput s t ∧
    SamePin s t ∧ t.irqEnabled = s.irqEnabled ∧ t.errOut = s.errOut ∧
    ((∀ a b c d, i ≠ .transmit a b c d) →
      t.cmdId = s.cmdId ∧ t.cmdDlc = s.cmdDlc ∧ t.draws = s.draws ∧ t.task = s.task) ∧
    ((∀ p, i ≠ .openSession p) → (∀ p, i ≠ .closeSession p) → t.connected = s.connected) ∧
    ((∀ d p, i ≠ .selectBitrate d p) → t.bitrateSel = s.bitrateSel) ∧
    ((∀ d p, i ≠ .setTimestamp d p) → t.timestamp = s.timestamp)

/-- Serial output (60_exceptions.md R305, R322; 92_eei_decisions.md D19; the queue's room, which stays as it
is through one sequence of writes, is log 7). Writing adds to what waits and then writes as much as there is
room for: all of it into ample room; into room for n bytes the first n, and the rest waits under `block` and
is lost under `drop`. So with room the bytes are written and nothing else changes but the room, under `block`
no byte is lost, under `drop` none waits, and bytes that wait are written, in order, when the host drains the
queue. -/
def Obligations.SerialWritesFollowThePolicy : Prop :=
  ∀ (bytes : List Byte) (s : State),
    emit bytes s = txDrain { s with txPending := s.txPending ++ bytes } ∧
    (∃ out wait room, emit bytes s =
      { s with hostOut := s.hostOut ++ out, txPending := wait, txRoom := room }) ∧
    (s.txRoom = .ample →
      txDrain s = { s with hostOut := s.hostOut ++ s.txPending, txPending := [] }) ∧
    (∀ n, s.txRoom = .free n → s.params.txFullPolicy = .block →
      txDrain s =
        { s with
          hostOut := s.hostOut ++ s.txPending.take n, txPending := s.txPending.drop n
          txRoom := .free (n - s.txPending.length) }) ∧
    (∀ n, s.txRoom = .free n → s.params.txFullPolicy = .drop →
      txDrain s =
        { s with
          hostOut := s.hostOut ++ s.txPending.take n, txPending := []
          txRoom := .free (n - s.txPending.length) }) ∧
    (txTakes s bytes.length → ∃ room,
      emit bytes s = { s with hostOut := s.hostOut ++ bytes, txRoom := room }) ∧
    (s.params.txFullPolicy = .block →
      (emit bytes s).hostOut ++ (emit bytes s).txPending =
        s.hostOut ++ s.txPending ++ bytes) ∧
    (s.params.txFullPolicy = .drop → s.txPending = [] →
      ∃ k, (emit bytes s).hostOut = s.hostOut ++ bytes.take k ∧ (emit bytes s).txPending = [] ∧
        ∀ n, s.txRoom = .free n → k = n)

/-! ## The line parser -/

/-- A host character (44_command_protocol.md R220, R222): NUL is ignored, a character is stored, the 26th
resets the line. What follows an overflow is the parameter of D11. -/
def Obligations.CharactersAccumulate : Prop :=
  ∀ (c : Byte) (s : State),
    onHostByte 0x00#8 s = .next s ∧
    (c ≠ 0x00#8 → c ≠ 0x0D#8 → c ≠ 0x0A#8 →
      (s.lineDiscard = true → onHostByte c s = .next s) ∧
      (s.lineDiscard = false → ∀ (n : Nat) (h : n + 1 < 26), s.lineLen.val = n →
        onHostByte c s = .next
          { s with lineBuf := s.lineBuf.set n c, lineLen := ⟨n + 1, h⟩ }) ∧
      (s.lineDiscard = false → s.lineLen.val = 25 →
        onHostByte c s = .next
          { s with
            lineBuf := s.lineBuf.set 25 c, lineLen := 0
            lineDiscard := s.params.overflowDiscardsRest }))

/-- A STEP RUNS THE DECODED INSTRUCTION: when the main loop's next step reads a terminator and the line
decodes to i, the step is exec of i at the state with the line NUL-terminated, and the line is empty
afterwards, unless i is a `t` that goes on in the main loop's next units, the last of which empties it
(44_command_protocol.md R221, R223; 45_host_forwarding.md R265; 20_memory.md R69, log 16). -/
def Obligations.StepRunsDecodedLine : Prop :=
  ∀ (s : State) (c : Byte) (more : List Byte) (rest : List Event) (i : Instr),
    s.boot = .running → s.txPending = [] → s.task = .choosing → s.schedule = .serveHost :: rest →
    s.serialRx = c :: more → (c = 0x0D#8 ∨ c = 0x0A#8) → s.lineDiscard = false →
    s.lineLen ≠ 0 → decode (lineOf s) = .ok i →
    ∃ t, exec i { s with
        schedule := rest, serialRx := more
        lineBuf := s.lineBuf.set s.lineLen.val 0x00#8 } = .next t ∧
      (t.task = .choosing → step s = .next { t with lineLen := 0 }) ∧
      (t.task ≠ .choosing → step s = .next t ∧ ∃ a b c d, i = .transmit a b c d)

/-- A step takes the schedule's next event (20_memory.md R69, 45_host_forwarding.md R265): a tick, a host
byte, room in the TX queue, the pop of ForwardOne, ReadAndClearErrors, whose byte leaves the block (D22,
log 9), or the next unit of the step the main loop is in (log 16): a `t` line's transmission, its CR, or the
rest of ForwardOne. A main loop that waits in a serial write goes on with nothing of its own
(60_exceptions.md R305; log 7), and one inside a step chooses no other. A used-up schedule is followed by a
free event (log 3). -/
def Obligations.StepTakesNextEvent : Prop :=
  ∀ (s u : State) (e : Event) (rest : List Event), s.boot = .running →
    s.schedule = e :: rest → u = { s with schedule := rest } →
    (∀ l w1 w2, e = .tick l w1 w2 → step s = .next (tick l w1 w2 u)) ∧
    (∀ b, e = .hostSends b → step s = .next { u with serialRx := s.serialRx ++ [b] }) ∧
    (∀ room, e = .txQueue room → step s = .next (txDrain { u with txRoom := room })) ∧
    (s.txPending = [] → s.task = .choosing →
      (e = .forward → step s = .next (takeFrame u)) ∧
      (e = .readErrors → step s = .next
        { u with errFlags := 0x00#8, irqEnabled := true, errOut := s.errOut ++ [s.errFlags] }) ∧
      (e = .serveHost → s.serialRx = [] → step s = .next u) ∧
      (∀ c more, e = .serveHost → s.serialRx = c :: more →
        step s = onHostByte c { u with serialRx := more })) ∧
    (e = .serveHost ∨ e = .forward ∨ e = .readErrors → s.txPending ≠ [] ∨ s.task ≠ .choosing →
      step s = .next u) ∧
    (e = .proceed → step s = .next (proceed u) ∧
      (s.txPending ≠ [] ∨ s.task = .choosing → step s = .next u) ∧
      (s.txPending = [] →
        (∀ addr data, s.task = .transmitting addr data →
          step s = .next { transmitFrame addr data u with task := .replying }) ∧
        (s.task = .replying →
          step s = .next { emit [0x0D#8] { u with task := .choosing } with lineLen := 0 }) ∧
        (∀ f, s.task = .forwarding f → step s = .next (forwardFrame f u)))) ∧
    step { u with schedule := [] } =
      step { u with schedule := [Config.freeEvent s.draws], draws := s.draws + 1 }

/-- A terminator on an empty line, or after a discarded line, dispatches nothing
(44_command_protocol.md R221). -/
def Obligations.EmptyLineDispatchesNothing : Prop :=
  ∀ (s : State) (c : Byte), (c = 0x0D#8 ∨ c = 0x0A#8) →
    (s.lineDiscard = false → s.lineLen = 0 → onHostByte c s = .next s) ∧
    (s.lineDiscard = true → onHostByte c s = .next { s with lineDiscard := false, lineLen := 0 })

/-! ## Forwarding -/

/-- Two hex digits spell a byte and read back as it; both are lowercase digits (45_host_forwarding.md
R260, 30_encoding.md R89; the nibble order is D13). -/
def Obligations.HexTextReadsBack : Prop :=
  ∀ b : Byte, ∃ hi lo : Byte, hexLower b = [hi, lo] ∧
    hexval hi * 16 + hexval lo = b.toNat ∧
    hi ∈ [0x30#8, 0x31#8, 0x32#8, 0x33#8, 0x34#8, 0x35#8, 0x36#8, 0x37#8, 0x38#8, 0x39#8, 0x61#8,
      0x62#8, 0x63#8, 0x64#8, 0x65#8, 0x66#8] ∧
    lo ∈ [0x30#8, 0x31#8, 0x32#8, 0x33#8, 0x34#8, 0x35#8, 0x36#8, 0x37#8, 0x38#8, 0x39#8, 0x61#8,
      0x62#8, 0x63#8, 0x64#8, 0x65#8, 0x66#8]

/-- The host text of a frame (45_host_forwarding.md R261, R262; 30_encoding.md R92): `t`, the identifier,
and for more bytes a space, the data length digit ('0' where it is none of 0 to 8) and every later byte,
then CR. -/
def Obligations.EncodedFrameText : Prop :=
  ∀ (id : Byte) (rest : List Byte),
    (rest = [] → encodeFrame (id :: rest) = [0x74#8] ++ hexLower id ++ [0x0D#8]) ∧
    (1 ≤ rest.length → rest.length ≤ 9 →
      encodeFrame (id :: rest) =
        [0x74#8] ++ hexLower id ++ [0x20#8, BitVec.ofNat 8 (0x30 + (rest.length - 1))] ++
          rest.flatMap hexLower ++ [0x0D#8]) ∧
    (9 < rest.length →
      encodeFrame (id :: rest) =
        [0x74#8] ++ hexLower id ++ [0x20#8, 0x30#8] ++ rest.flatMap hexLower ++ [0x0D#8])

/-- ForwardOne (45_host_forwarding.md R263, R264) in its two atomic units (20_memory.md R69; log 16): the pop,
after which the main loop holds the frame as its own; then the frame is dropped or its text is written. No
error bit in any case. Forwarding while closed is the OPEN parameter of D20. -/
def Obligations.ForwardOnePopsValidatesEncodes : Prop :=
  ∀ s : State,
    (s.head = s.tail → takeFrame s = { s with irqEnabled := true }) ∧
    (∀ f more, waiting s = f :: more →
      takeFrame s = { s with irqEnabled := true, tail := s.tail + 1, task := .forwarding f }) ∧
    (takeFrame s).errFlags = s.errFlags ∧
    ∀ f : List Byte,
      ((s.connected = false ∧ s.params.forwardRequiresConnected = true) ∨
          isValid s.params.checksumIncludesId f = false →
        forwardFrame f s = { s with task := .choosing }) ∧
      ((s.connected = true ∨ s.params.forwardRequiresConnected = false) →
        isValid s.params.checksumIncludesId f = true →
        forwardFrame f s = emit (encodeFrame f) { s with task := .choosing }) ∧
      (forwardFrame f s).errFlags = s.errFlags

/-! ## The whole machine -/

/-- The reset table (10_state.md section 8; 70_reset_and_hazards.md R340, R341). Every value is the spec's
choice D23, D24, D35 or D8. -/
def Obligations.ResetTable : Prop :=
  State.reset.rxMode = .detectBreak ∧ State.reset.lowCount = 0 ∧ State.reset.byteCount = 0 ∧
  State.reset.bitPos = 0 ∧ State.reset.timerPhase = .free ∧ State.reset.head = 0 ∧
  State.reset.tail = 0 ∧ State.reset.errFlags = 0x00#8 ∧ State.reset.irqEnabled = false ∧
  State.reset.lineLen = 0 ∧ State.reset.lineDiscard = false ∧ State.reset.connected = false ∧
  State.reset.timestamp = false ∧ State.reset.bitrateSel = none ∧ State.reset.txLevel = .high ∧
  State.reset.txTrace = [] ∧ State.reset.hostOut = []

/-- The boot sequence (70_reset_and_hazards.md R342, R343; the order is D35, a step each is log 4): cfg,
the TX pin high, the timer free-running, interrupts enabled, in this order. -/
def Obligations.BootRunsInOrder : Prop :=
  ∀ s : State,
    (s.boot = .fieldsReset → step s = .next { s with
      cfg := Config.timerCfg s.params.baud s.params.interByteMultiplier, boot := .cfgComputed }) ∧
    (s.boot = .cfgComputed → step s = .next { s with txLevel := .high, boot := .txReleased }) ∧
    (s.boot = .txReleased → step s = .next { s with timerPhase := .free, boot := .timerStarted }) ∧
    (s.boot = .timerStarted → step s = .next { s with irqEnabled := true, boot := .running })

/-- The block never stops: every step of every state answers a next state (60_exceptions.md R305,
30_encoding.md R90). -/
def Obligations.StepAlwaysAnswersNext : Prop :=
  ∀ s : State, ∃ t, step s = .next t

/-- The invariant holds at reset. -/
def Obligations.ResetMeetsTheRanges : Prop := Inv State.reset

/-- Every step keeps the invariant: the ranges of the counters, the frame in progress, the waiting
frames' lengths, the reserved error bits, the line's characters, the idle TX level, the mask. -/
def Obligations.StepKeepsTheRanges : Prop :=
  ∀ s t : State, Inv s → step s = .next t → Inv t

/-- cfg is computed once, at boot step 2, and no other step writes it, whatever it runs
(70_reset_and_hazards.md R343; the multiplier is 10_state.md R39). That the parameters are written by no step
is the model's choice (log 8), and that a block that runs does not boot again is its inference (log 19). -/
def Obligations.ConfigIsComputedOnceAtBoot : Prop :=
  ∀ s t : State, step s = .next t →
    (s.boot = .fieldsReset →
      t.cfg = Config.timerCfg s.params.baud s.params.interByteMultiplier) ∧
    (s.boot ≠ .fieldsReset → t.cfg = s.cfg) ∧
    t.boot ≠ .fieldsReset ∧
    t.params = s.params ∧
    (s.boot = .running → t.boot = .running)

/-- The outputs are histories: a step only appends to hostOut, txTrace and the error bytes read
(10_state.md R40, R41; log 9). -/
def Obligations.OutputsOnlyGrow : Prop :=
  ∀ s t : State, step s = .next t →
    s.hostOut <+: t.hostOut ∧ s.txTrace <+: t.txTrace ∧ s.errOut <+: t.errOut

/-- Only a dispatched `t` line of a connected session drives the bus, and it drives one whole frame of 1 to 8
data bytes: the header-only transmission is unreachable (43_transmitter.md R203, R206). The trace is extended
in the unit of a transmission only, and the main loop comes to that unit in a step that dispatches such a
line only (that they are two units is log 16). -/
def Obligations.OnlyTransmitCommandDrivesBus : Prop :=
  ∀ s t : State, step s = .next t →
    (t.txTrace ≠ s.txTrace → ∃ addr data, s.task = .transmitting addr data ∧
      t.txTrace.length = s.txTrace.length + 44 + 10 * data.length) ∧
    (∀ addr data, t.task = .transmitting addr data → s.task ≠ .transmitting addr data →
      s.connected = true ∧ (∃ a b c d, decode (lineOf s) = .ok (.transmit a b c d)) ∧
      1 ≤ data.length ∧ data.length ≤ 8)

/-- Main-loop units of kind (d) and interrupt invocations touch disjoint state (20_memory.md R69): a tick
before or after one gives the same state, for every such unit (a host byte, with the command its line
dispatches; the CR of a `t` line; the rest of ForwardOne) and for the writes they are made of. -/
def Obligations.TicksCommuteWithMainLoopUnits : Prop :=
  ∀ (s : State) (l : Level) (w1 w2 : Wait),
    (∀ bytes, tick l w1 w2 (emit bytes s) = emit bytes (tick l w1 w2 s)) ∧
    tick l w1 w2 (txDrain s) = txDrain (tick l w1 w2 s) ∧
    (∀ c, tick l w1 w2 (onChar c s) = onChar c (tick l w1 w2 s)) ∧
    tick l w1 w2 (terminateLine s) = terminateLine (tick l w1 w2 s) ∧
    tick l w1 w2 (resetLine s) = resetLine (tick l w1 w2 s) ∧
    (∀ i t, exec i s = .next t → exec i (tick l w1 w2 s) = .next (tick l w1 w2 t)) ∧
    (∀ c t, onHostByte c s = .next t → onHostByte c (tick l w1 w2 s) = .next (tick l w1 w2 t)) ∧
    tick l w1 w2 (replySent s) = replySent (tick l w1 w2 s) ∧
    (∀ f, tick l w1 w2 (forwardFrame f s) = forwardFrame f (tick l w1 w2 s))
end

