-- ==== Sys2Proof/Laws/State.lean ====
section
/-! SUPPORT. What each named update of State does to each field: one lemma per field per update. -/

namespace Sys2Proof.Machine

variable (s : State)

/-! ## raise -/

@[simp] theorem raise_rxMode (k : RxError) : (raise k s).rxMode = s.rxMode := rfl
@[simp] theorem raise_lowCount (k : RxError) : (raise k s).lowCount = s.lowCount := rfl
@[simp] theorem raise_byteCount (k : RxError) : (raise k s).byteCount = s.byteCount := rfl
@[simp] theorem raise_bitPos (k : RxError) : (raise k s).bitPos = s.bitPos := rfl
@[simp] theorem raise_acc (k : RxError) : (raise k s).acc = s.acc := rfl
@[simp] theorem raise_timerPhase (k : RxError) : (raise k s).timerPhase = s.timerPhase := rfl
@[simp] theorem raise_slots (k : RxError) : (raise k s).slots = s.slots := rfl
@[simp] theorem raise_head (k : RxError) : (raise k s).head = s.head := rfl
@[simp] theorem raise_tail (k : RxError) : (raise k s).tail = s.tail := rfl
@[simp] theorem raise_errFlags (k : RxError) :
    (raise k s).errFlags = s.errFlags ||| errMask k := rfl
@[simp] theorem raise_irqEnabled (k : RxError) : (raise k s).irqEnabled = s.irqEnabled := rfl
@[simp] theorem raise_lineBuf (k : RxError) : (raise k s).lineBuf = s.lineBuf := rfl
@[simp] theorem raise_lineLen (k : RxError) : (raise k s).lineLen = s.lineLen := rfl
@[simp] theorem raise_lineDiscard (k : RxError) : (raise k s).lineDiscard = s.lineDiscard := rfl
@[simp] theorem raise_connected (k : RxError) : (raise k s).connected = s.connected := rfl
@[simp] theorem raise_cmdId (k : RxError) : (raise k s).cmdId = s.cmdId := rfl
@[simp] theorem raise_cmdDlc (k : RxError) : (raise k s).cmdDlc = s.cmdDlc := rfl
@[simp] theorem raise_timestamp (k : RxError) : (raise k s).timestamp = s.timestamp := rfl
@[simp] theorem raise_bitrateSel (k : RxError) : (raise k s).bitrateSel = s.bitrateSel := rfl
@[simp] theorem raise_cfg (k : RxError) : (raise k s).cfg = s.cfg := rfl
@[simp] theorem raise_txLevel (k : RxError) : (raise k s).txLevel = s.txLevel := rfl
@[simp] theorem raise_txTrace (k : RxError) : (raise k s).txTrace = s.txTrace := rfl
@[simp] theorem raise_hostOut (k : RxError) : (raise k s).hostOut = s.hostOut := rfl
@[simp] theorem raise_boot (k : RxError) : (raise k s).boot = s.boot := rfl
@[simp] theorem raise_task (k : RxError) : (raise k s).task = s.task := rfl
@[simp] theorem raise_params (k : RxError) : (raise k s).params = s.params := rfl
@[simp] theorem raise_serialRx (k : RxError) : (raise k s).serialRx = s.serialRx := rfl
@[simp] theorem raise_txRoom (k : RxError) : (raise k s).txRoom = s.txRoom := rfl
@[simp] theorem raise_txPending (k : RxError) : (raise k s).txPending = s.txPending := rfl
@[simp] theorem raise_errOut (k : RxError) : (raise k s).errOut = s.errOut := rfl
@[simp] theorem raise_schedule (k : RxError) : (raise k s).schedule = s.schedule := rfl
@[simp] theorem raise_draws (k : RxError) : (raise k s).draws = s.draws := rfl

/-! ## disableIrq -/

@[simp] theorem disableIrq_rxMode : (disableIrq s).rxMode = s.rxMode := rfl
@[simp] theorem disableIrq_lowCount : (disableIrq s).lowCount = s.lowCount := rfl
@[simp] theorem disableIrq_byteCount : (disableIrq s).byteCount = s.byteCount := rfl
@[simp] theorem disableIrq_bitPos : (disableIrq s).bitPos = s.bitPos := rfl
@[simp] theorem disableIrq_acc : (disableIrq s).acc = s.acc := rfl
@[simp] theorem disableIrq_timerPhase : (disableIrq s).timerPhase = s.timerPhase := rfl
@[simp] theorem disableIrq_slots : (disableIrq s).slots = s.slots := rfl
@[simp] theorem disableIrq_head : (disableIrq s).head = s.head := rfl
@[simp] theorem disableIrq_tail : (disableIrq s).tail = s.tail := rfl
@[simp] theorem disableIrq_errFlags : (disableIrq s).errFlags = s.errFlags := rfl
@[simp] theorem disableIrq_irqEnabled : (disableIrq s).irqEnabled = false := rfl
@[simp] theorem disableIrq_lineBuf : (disableIrq s).lineBuf = s.lineBuf := rfl
@[simp] theorem disableIrq_lineLen : (disableIrq s).lineLen = s.lineLen := rfl
@[simp] theorem disableIrq_lineDiscard : (disableIrq s).lineDiscard = s.lineDiscard := rfl
@[simp] theorem disableIrq_connected : (disableIrq s).connected = s.connected := rfl
@[simp] theorem disableIrq_cmdId : (disableIrq s).cmdId = s.cmdId := rfl
@[simp] theorem disableIrq_cmdDlc : (disableIrq s).cmdDlc = s.cmdDlc := rfl
@[simp] theorem disableIrq_timestamp : (disableIrq s).timestamp = s.timestamp := rfl
@[simp] theorem disableIrq_bitrateSel : (disableIrq s).bitrateSel = s.bitrateSel := rfl
@[simp] theorem disableIrq_cfg : (disableIrq s).cfg = s.cfg := rfl
@[simp] theorem disableIrq_txLevel : (disableIrq s).txLevel = s.txLevel := rfl
@[simp] theorem disableIrq_txTrace : (disableIrq s).txTrace = s.txTrace := rfl
@[simp] theorem disableIrq_hostOut : (disableIrq s).hostOut = s.hostOut := rfl
@[simp] theorem disableIrq_boot : (disableIrq s).boot = s.boot := rfl
@[simp] theorem disableIrq_task : (disableIrq s).task = s.task := rfl
@[simp] theorem disableIrq_params : (disableIrq s).params = s.params := rfl
@[simp] theorem disableIrq_serialRx : (disableIrq s).serialRx = s.serialRx := rfl
@[simp] theorem disableIrq_txRoom : (disableIrq s).txRoom = s.txRoom := rfl
@[simp] theorem disableIrq_txPending : (disableIrq s).txPending = s.txPending := rfl
@[simp] theorem disableIrq_errOut : (disableIrq s).errOut = s.errOut := rfl
@[simp] theorem disableIrq_schedule : (disableIrq s).schedule = s.schedule := rfl
@[simp] theorem disableIrq_draws : (disableIrq s).draws = s.draws := rfl

/-! ## enableIrq -/

@[simp] theorem enableIrq_rxMode : (enableIrq s).rxMode = s.rxMode := rfl
@[simp] theorem enableIrq_lowCount : (enableIrq s).lowCount = s.lowCount := rfl
@[simp] theorem enableIrq_byteCount : (enableIrq s).byteCount = s.byteCount := rfl
@[simp] theorem enableIrq_bitPos : (enableIrq s).bitPos = s.bitPos := rfl
@[simp] theorem enableIrq_acc : (enableIrq s).acc = s.acc := rfl
@[simp] theorem enableIrq_timerPhase : (enableIrq s).timerPhase = s.timerPhase := rfl
@[simp] theorem enableIrq_slots : (enableIrq s).slots = s.slots := rfl
@[simp] theorem enableIrq_head : (enableIrq s).head = s.head := rfl
@[simp] theorem enableIrq_tail : (enableIrq s).tail = s.tail := rfl
@[simp] theorem enableIrq_errFlags : (enableIrq s).errFlags = s.errFlags := rfl
@[simp] theorem enableIrq_irqEnabled : (enableIrq s).irqEnabled = true := rfl
@[simp] theorem enableIrq_lineBuf : (enableIrq s).lineBuf = s.lineBuf := rfl
@[simp] theorem enableIrq_lineLen : (enableIrq s).lineLen = s.lineLen := rfl
@[simp] theorem enableIrq_lineDiscard : (enableIrq s).lineDiscard = s.lineDiscard := rfl
@[simp] theorem enableIrq_connected : (enableIrq s).connected = s.connected := rfl
@[simp] theorem enableIrq_cmdId : (enableIrq s).cmdId = s.cmdId := rfl
@[simp] theorem enableIrq_cmdDlc : (enableIrq s).cmdDlc = s.cmdDlc := rfl
@[simp] theorem enableIrq_timestamp : (enableIrq s).timestamp = s.timestamp := rfl
@[simp] theorem enableIrq_bitrateSel : (enableIrq s).bitrateSel = s.bitrateSel := rfl
@[simp] theorem enableIrq_cfg : (enableIrq s).cfg = s.cfg := rfl
@[simp] theorem enableIrq_txLevel : (enableIrq s).txLevel = s.txLevel := rfl
@[simp] theorem enableIrq_txTrace : (enableIrq s).txTrace = s.txTrace := rfl
@[simp] theorem enableIrq_hostOut : (enableIrq s).hostOut = s.hostOut := rfl
@[simp] theorem enableIrq_boot : (enableIrq s).boot = s.boot := rfl
@[simp] theorem enableIrq_task : (enableIrq s).task = s.task := rfl
@[simp] theorem enableIrq_params : (enableIrq s).params = s.params := rfl
@[simp] theorem enableIrq_serialRx : (enableIrq s).serialRx = s.serialRx := rfl
@[simp] theorem enableIrq_txRoom : (enableIrq s).txRoom = s.txRoom := rfl
@[simp] theorem enableIrq_txPending : (enableIrq s).txPending = s.txPending := rfl
@[simp] theorem enableIrq_errOut : (enableIrq s).errOut = s.errOut := rfl
@[simp] theorem enableIrq_schedule : (enableIrq s).schedule = s.schedule := rfl
@[simp] theorem enableIrq_draws : (enableIrq s).draws = s.draws := rfl

/-! ## setSlot -/

@[simp] theorem setSlot_rxMode (k : Fin 8) (f : Slot) : (setSlot k f s).rxMode = s.rxMode := rfl
@[simp] theorem setSlot_lowCount (k : Fin 8) (f : Slot) :
    (setSlot k f s).lowCount = s.lowCount := rfl
@[simp] theorem setSlot_byteCount (k : Fin 8) (f : Slot) :
    (setSlot k f s).byteCount = s.byteCount := rfl
@[simp] theorem setSlot_bitPos (k : Fin 8) (f : Slot) : (setSlot k f s).bitPos = s.bitPos := rfl
@[simp] theorem setSlot_acc (k : Fin 8) (f : Slot) : (setSlot k f s).acc = s.acc := rfl
@[simp] theorem setSlot_timerPhase (k : Fin 8) (f : Slot) :
    (setSlot k f s).timerPhase = s.timerPhase := rfl
@[simp] theorem setSlot_slots (k : Fin 8) (f : Slot) :
    (setSlot k f s).slots = s.slots.set k f := rfl
@[simp] theorem setSlot_head (k : Fin 8) (f : Slot) : (setSlot k f s).head = s.head := rfl
@[simp] theorem setSlot_tail (k : Fin 8) (f : Slot) : (setSlot k f s).tail = s.tail := rfl
@[simp] theorem setSlot_errFlags (k : Fin 8) (f : Slot) :
    (setSlot k f s).errFlags = s.errFlags := rfl
@[simp] theorem setSlot_irqEnabled (k : Fin 8) (f : Slot) :
    (setSlot k f s).irqEnabled = s.irqEnabled := rfl
@[simp] theorem setSlot_lineBuf (k : Fin 8) (f : Slot) : (setSlot k f s).lineBuf = s.lineBuf := rfl
@[simp] theorem setSlot_lineLen (k : Fin 8) (f : Slot) : (setSlot k f s).lineLen = s.lineLen := rfl
@[simp] theorem setSlot_lineDiscard (k : Fin 8) (f : Slot) :
    (setSlot k f s).lineDiscard = s.lineDiscard := rfl
@[simp] theorem setSlot_connected (k : Fin 8) (f : Slot) :
    (setSlot k f s).connected = s.connected := rfl
@[simp] theorem setSlot_cmdId (k : Fin 8) (f : Slot) : (setSlot k f s).cmdId = s.cmdId := rfl
@[simp] theorem setSlot_cmdDlc (k : Fin 8) (f : Slot) : (setSlot k f s).cmdDlc = s.cmdDlc := rfl
@[simp] theorem setSlot_timestamp (k : Fin 8) (f : Slot) :
    (setSlot k f s).timestamp = s.timestamp := rfl
@[simp] theorem setSlot_bitrateSel (k : Fin 8) (f : Slot) :
    (setSlot k f s).bitrateSel = s.bitrateSel := rfl
@[simp] theorem setSlot_cfg (k : Fin 8) (f : Slot) : (setSlot k f s).cfg = s.cfg := rfl
@[simp] theorem setSlot_txLevel (k : Fin 8) (f : Slot) : (setSlot k f s).txLevel = s.txLevel := rfl
@[simp] theorem setSlot_txTrace (k : Fin 8) (f : Slot) : (setSlot k f s).txTrace = s.txTrace := rfl
@[simp] theorem setSlot_hostOut (k : Fin 8) (f : Slot) : (setSlot k f s).hostOut = s.hostOut := rfl
@[simp] theorem setSlot_boot (k : Fin 8) (f : Slot) : (setSlot k f s).boot = s.boot := rfl
@[simp] theorem setSlot_task (k : Fin 8) (f : Slot) : (setSlot k f s).task = s.task := rfl
@[simp] theorem setSlot_params (k : Fin 8) (f : Slot) : (setSlot k f s).params = s.params := rfl
@[simp] theorem setSlot_serialRx (k : Fin 8) (f : Slot) :
    (setSlot k f s).serialRx = s.serialRx := rfl
@[simp] theorem setSlot_txRoom (k : Fin 8) (f : Slot) : (setSlot k f s).txRoom = s.txRoom := rfl
@[simp] theorem setSlot_txPending (k : Fin 8) (f : Slot) :
    (setSlot k f s).txPending = s.txPending := rfl
@[simp] theorem setSlot_errOut (k : Fin 8) (f : Slot) : (setSlot k f s).errOut = s.errOut := rfl
@[simp] theorem setSlot_schedule (k : Fin 8) (f : Slot) :
    (setSlot k f s).schedule = s.schedule := rfl
@[simp] theorem setSlot_draws (k : Fin 8) (f : Slot) : (setSlot k f s).draws = s.draws := rfl

/-! ## drive -/

@[simp] theorem drive_rxMode (l : Level) (n : Nat) : (drive l n s).rxMode = s.rxMode := rfl
@[simp] theorem drive_lowCount (l : Level) (n : Nat) : (drive l n s).lowCount = s.lowCount := rfl
@[simp] theorem drive_byteCount (l : Level) (n : Nat) : (drive l n s).byteCount = s.byteCount := rfl
@[simp] theorem drive_bitPos (l : Level) (n : Nat) : (drive l n s).bitPos = s.bitPos := rfl
@[simp] theorem drive_acc (l : Level) (n : Nat) : (drive l n s).acc = s.acc := rfl
@[simp] theorem drive_timerPhase (l : Level) (n : Nat) :
    (drive l n s).timerPhase = s.timerPhase := rfl
@[simp] theorem drive_slots (l : Level) (n : Nat) : (drive l n s).slots = s.slots := rfl
@[simp] theorem drive_head (l : Level) (n : Nat) : (drive l n s).head = s.head := rfl
@[simp] theorem drive_tail (l : Level) (n : Nat) : (drive l n s).tail = s.tail := rfl
@[simp] theorem drive_errFlags (l : Level) (n : Nat) : (drive l n s).errFlags = s.errFlags := rfl
@[simp] theorem drive_irqEnabled (l : Level) (n : Nat) :
    (drive l n s).irqEnabled = s.irqEnabled := rfl
@[simp] theorem drive_lineBuf (l : Level) (n : Nat) : (drive l n s).lineBuf = s.lineBuf := rfl
@[simp] theorem drive_lineLen (l : Level) (n : Nat) : (drive l n s).lineLen = s.lineLen := rfl
@[simp] theorem drive_lineDiscard (l : Level) (n : Nat) :
    (drive l n s).lineDiscard = s.lineDiscard := rfl
@[simp] theorem drive_connected (l : Level) (n : Nat) : (drive l n s).connected = s.connected := rfl
@[simp] theorem drive_cmdId (l : Level) (n : Nat) : (drive l n s).cmdId = s.cmdId := rfl
@[simp] theorem drive_cmdDlc (l : Level) (n : Nat) : (drive l n s).cmdDlc = s.cmdDlc := rfl
@[simp] theorem drive_timestamp (l : Level) (n : Nat) : (drive l n s).timestamp = s.timestamp := rfl
@[simp] theorem drive_bitrateSel (l : Level) (n : Nat) :
    (drive l n s).bitrateSel = s.bitrateSel := rfl
@[simp] theorem drive_cfg (l : Level) (n : Nat) : (drive l n s).cfg = s.cfg := rfl
@[simp] theorem drive_txLevel (l : Level) (n : Nat) : (drive l n s).txLevel = l := rfl
@[simp] theorem drive_txTrace (l : Level) (n : Nat) :
    (drive l n s).txTrace = s.txTrace ++ List.replicate n l := rfl
@[simp] theorem drive_hostOut (l : Level) (n : Nat) : (drive l n s).hostOut = s.hostOut := rfl
@[simp] theorem drive_boot (l : Level) (n : Nat) : (drive l n s).boot = s.boot := rfl
@[simp] theorem drive_task (l : Level) (n : Nat) : (drive l n s).task = s.task := rfl
@[simp] theorem drive_params (l : Level) (n : Nat) : (drive l n s).params = s.params := rfl
@[simp] theorem drive_serialRx (l : Level) (n : Nat) : (drive l n s).serialRx = s.serialRx := rfl
@[simp] theorem drive_txRoom (l : Level) (n : Nat) : (drive l n s).txRoom = s.txRoom := rfl
@[simp] theorem drive_txPending (l : Level) (n : Nat) : (drive l n s).txPending = s.txPending := rfl
@[simp] theorem drive_errOut (l : Level) (n : Nat) : (drive l n s).errOut = s.errOut := rfl
@[simp] theorem drive_schedule (l : Level) (n : Nat) : (drive l n s).schedule = s.schedule := rfl
@[simp] theorem drive_draws (l : Level) (n : Nat) : (drive l n s).draws = s.draws := rfl

/-! ## emit -/

@[simp] theorem emit_rxMode (bs : List Byte) : (emit bs s).rxMode = s.rxMode := rfl
@[simp] theorem emit_lowCount (bs : List Byte) : (emit bs s).lowCount = s.lowCount := rfl
@[simp] theorem emit_byteCount (bs : List Byte) : (emit bs s).byteCount = s.byteCount := rfl
@[simp] theorem emit_bitPos (bs : List Byte) : (emit bs s).bitPos = s.bitPos := rfl
@[simp] theorem emit_acc (bs : List Byte) : (emit bs s).acc = s.acc := rfl
@[simp] theorem emit_timerPhase (bs : List Byte) : (emit bs s).timerPhase = s.timerPhase := rfl
@[simp] theorem emit_slots (bs : List Byte) : (emit bs s).slots = s.slots := rfl
@[simp] theorem emit_head (bs : List Byte) : (emit bs s).head = s.head := rfl
@[simp] theorem emit_tail (bs : List Byte) : (emit bs s).tail = s.tail := rfl
@[simp] theorem emit_errFlags (bs : List Byte) : (emit bs s).errFlags = s.errFlags := rfl
@[simp] theorem emit_irqEnabled (bs : List Byte) : (emit bs s).irqEnabled = s.irqEnabled := rfl
@[simp] theorem emit_lineBuf (bs : List Byte) : (emit bs s).lineBuf = s.lineBuf := rfl
@[simp] theorem emit_lineLen (bs : List Byte) : (emit bs s).lineLen = s.lineLen := rfl
@[simp] theorem emit_lineDiscard (bs : List Byte) : (emit bs s).lineDiscard = s.lineDiscard := rfl
@[simp] theorem emit_connected (bs : List Byte) : (emit bs s).connected = s.connected := rfl
@[simp] theorem emit_cmdId (bs : List Byte) : (emit bs s).cmdId = s.cmdId := rfl
@[simp] theorem emit_cmdDlc (bs : List Byte) : (emit bs s).cmdDlc = s.cmdDlc := rfl
@[simp] theorem emit_timestamp (bs : List Byte) : (emit bs s).timestamp = s.timestamp := rfl
@[simp] theorem emit_bitrateSel (bs : List Byte) : (emit bs s).bitrateSel = s.bitrateSel := rfl
@[simp] theorem emit_cfg (bs : List Byte) : (emit bs s).cfg = s.cfg := rfl
@[simp] theorem emit_txLevel (bs : List Byte) : (emit bs s).txLevel = s.txLevel := rfl
@[simp] theorem emit_txTrace (bs : List Byte) : (emit bs s).txTrace = s.txTrace := rfl
@[simp] theorem emit_hostOut (bs : List Byte) :
    (emit bs s).hostOut =
      s.hostOut ++ (txAccept s.params.txFullPolicy s.txRoom (s.txPending ++ bs)).1 := rfl
@[simp] theorem emit_boot (bs : List Byte) : (emit bs s).boot = s.boot := rfl
@[simp] theorem emit_task (bs : List Byte) : (emit bs s).task = s.task := rfl
@[simp] theorem emit_params (bs : List Byte) : (emit bs s).params = s.params := rfl
@[simp] theorem emit_serialRx (bs : List Byte) : (emit bs s).serialRx = s.serialRx := rfl
@[simp] theorem emit_txRoom (bs : List Byte) :
    (emit bs s).txRoom =
      (txAccept s.params.txFullPolicy s.txRoom (s.txPending ++ bs)).2.2 := rfl
@[simp] theorem emit_txPending (bs : List Byte) :
    (emit bs s).txPending =
      (txAccept s.params.txFullPolicy s.txRoom (s.txPending ++ bs)).2.1 := rfl
@[simp] theorem emit_errOut (bs : List Byte) : (emit bs s).errOut = s.errOut := rfl
@[simp] theorem emit_schedule (bs : List Byte) : (emit bs s).schedule = s.schedule := rfl
@[simp] theorem emit_draws (bs : List Byte) : (emit bs s).draws = s.draws := rfl

/-! ## enterDetectBreak -/

@[simp] theorem enterDetectBreak_rxMode : (enterDetectBreak s).rxMode = .detectBreak := rfl
@[simp] theorem enterDetectBreak_lowCount : (enterDetectBreak s).lowCount = 0 := rfl
@[simp] theorem enterDetectBreak_byteCount : (enterDetectBreak s).byteCount = s.byteCount := rfl
@[simp] theorem enterDetectBreak_bitPos : (enterDetectBreak s).bitPos = s.bitPos := rfl
@[simp] theorem enterDetectBreak_acc : (enterDetectBreak s).acc = s.acc := rfl
@[simp] theorem enterDetectBreak_timerPhase : (enterDetectBreak s).timerPhase = s.timerPhase := rfl
@[simp] theorem enterDetectBreak_slots : (enterDetectBreak s).slots = s.slots := rfl
@[simp] theorem enterDetectBreak_head : (enterDetectBreak s).head = s.head := rfl
@[simp] theorem enterDetectBreak_tail : (enterDetectBreak s).tail = s.tail := rfl
@[simp] theorem enterDetectBreak_errFlags : (enterDetectBreak s).errFlags = s.errFlags := rfl
@[simp] theorem enterDetectBreak_irqEnabled : (enterDetectBreak s).irqEnabled = s.irqEnabled := rfl
@[simp] theorem enterDetectBreak_lineBuf : (enterDetectBreak s).lineBuf = s.lineBuf := rfl
@[simp] theorem enterDetectBreak_lineLen : (enterDetectBreak s).lineLen = s.lineLen := rfl
@[simp] theorem enterDetectBreak_lineDiscard :
    (enterDetectBreak s).lineDiscard = s.lineDiscard := rfl
@[simp] theorem enterDetectBreak_connected : (enterDetectBreak s).connected = s.connected := rfl
@[simp] theorem enterDetectBreak_cmdId : (enterDetectBreak s).cmdId = s.cmdId := rfl
@[simp] theorem enterDetectBreak_cmdDlc : (enterDetectBreak s).cmdDlc = s.cmdDlc := rfl
@[simp] theorem enterDetectBreak_timestamp : (enterDetectBreak s).timestamp = s.timestamp := rfl
@[simp] theorem enterDetectBreak_bitrateSel : (enterDetectBreak s).bitrateSel = s.bitrateSel := rfl
@[simp] theorem enterDetectBreak_cfg : (enterDetectBreak s).cfg = s.cfg := rfl
@[simp] theorem enterDetectBreak_txLevel : (enterDetectBreak s).txLevel = s.txLevel := rfl
@[simp] theorem enterDetectBreak_txTrace : (enterDetectBreak s).txTrace = s.txTrace := rfl
@[simp] theorem enterDetectBreak_hostOut : (enterDetectBreak s).hostOut = s.hostOut := rfl
@[simp] theorem enterDetectBreak_boot : (enterDetectBreak s).boot = s.boot := rfl
@[simp] theorem enterDetectBreak_task : (enterDetectBreak s).task = s.task := rfl
@[simp] theorem enterDetectBreak_params : (enterDetectBreak s).params = s.params := rfl
@[simp] theorem enterDetectBreak_serialRx : (enterDetectBreak s).serialRx = s.serialRx := rfl
@[simp] theorem enterDetectBreak_txRoom : (enterDetectBreak s).txRoom = s.txRoom := rfl
@[simp] theorem enterDetectBreak_txPending : (enterDetectBreak s).txPending = s.txPending := rfl
@[simp] theorem enterDetectBreak_errOut : (enterDetectBreak s).errOut = s.errOut := rfl
@[simp] theorem enterDetectBreak_schedule : (enterDetectBreak s).schedule = s.schedule := rfl
@[simp] theorem enterDetectBreak_draws : (enterDetectBreak s).draws = s.draws := rfl

/-! ## timerRephase -/

@[simp] theorem timerRephase_rxMode : (timerRephase s).rxMode = s.rxMode := rfl
@[simp] theorem timerRephase_lowCount : (timerRephase s).lowCount = s.lowCount := rfl
@[simp] theorem timerRephase_byteCount : (timerRephase s).byteCount = s.byteCount := rfl
@[simp] theorem timerRephase_bitPos : (timerRephase s).bitPos = s.bitPos := rfl
@[simp] theorem timerRephase_acc : (timerRephase s).acc = s.acc := rfl
@[simp] theorem timerRephase_timerPhase : (timerRephase s).timerPhase = .centred := rfl
@[simp] theorem timerRephase_slots : (timerRephase s).slots = s.slots := rfl
@[simp] theorem timerRephase_head : (timerRephase s).head = s.head := rfl
@[simp] theorem timerRephase_tail : (timerRephase s).tail = s.tail := rfl
@[simp] theorem timerRephase_errFlags : (timerRephase s).errFlags = s.errFlags := rfl
@[simp] theorem timerRephase_irqEnabled : (timerRephase s).irqEnabled = s.irqEnabled := rfl
@[simp] theorem timerRephase_lineBuf : (timerRephase s).lineBuf = s.lineBuf := rfl
@[simp] theorem timerRephase_lineLen : (timerRephase s).lineLen = s.lineLen := rfl
@[simp] theorem timerRephase_lineDiscard : (timerRephase s).lineDiscard = s.lineDiscard := rfl
@[simp] theorem timerRephase_connected : (timerRephase s).connected = s.connected := rfl
@[simp] theorem timerRephase_cmdId : (timerRephase s).cmdId = s.cmdId := rfl
@[simp] theorem timerRephase_cmdDlc : (timerRephase s).cmdDlc = s.cmdDlc := rfl
@[simp] theorem timerRephase_timestamp : (timerRephase s).timestamp = s.timestamp := rfl
@[simp] theorem timerRephase_bitrateSel : (timerRephase s).bitrateSel = s.bitrateSel := rfl
@[simp] theorem timerRephase_cfg : (timerRephase s).cfg = s.cfg := rfl
@[simp] theorem timerRephase_txLevel : (timerRephase s).txLevel = s.txLevel := rfl
@[simp] theorem timerRephase_txTrace : (timerRephase s).txTrace = s.txTrace := rfl
@[simp] theorem timerRephase_hostOut : (timerRephase s).hostOut = s.hostOut := rfl
@[simp] theorem timerRephase_boot : (timerRephase s).boot = s.boot := rfl
@[simp] theorem timerRephase_task : (timerRephase s).task = s.task := rfl
@[simp] theorem timerRephase_params : (timerRephase s).params = s.params := rfl
@[simp] theorem timerRephase_serialRx : (timerRephase s).serialRx = s.serialRx := rfl
@[simp] theorem timerRephase_txRoom : (timerRephase s).txRoom = s.txRoom := rfl
@[simp] theorem timerRephase_txPending : (timerRephase s).txPending = s.txPending := rfl
@[simp] theorem timerRephase_errOut : (timerRephase s).errOut = s.errOut := rfl
@[simp] theorem timerRephase_schedule : (timerRephase s).schedule = s.schedule := rfl
@[simp] theorem timerRephase_draws : (timerRephase s).draws = s.draws := rfl

end Sys2Proof.Machine
end

