-- ==== Sys2Proof/Laws/CommandState.lean ====
section
/-! SUPPORT. What a command's write and the line's updates do to each field: one lemma per field per
update. -/

namespace Sys2Proof.Machine

/-- The fields a command may write, apart from the pin, the mask and the serial output, at new values;
all else as in s. -/
def commandWrite (conn : Bool) (id : BitVec 12) (dlc : BitVec 4) (ts : Bool) (br : Option Nat)
    (used : Nat) (task : MainTask) (s : State) : State :=
  { s with
    connected := conn, cmdId := id, cmdDlc := dlc, timestamp := ts, bitrateSel := br
    draws := s.draws + used, task := task }

variable (s : State)

/-! ## terminateLine -/

@[simp] theorem terminateLine_rxMode : (terminateLine s).rxMode = s.rxMode := rfl
@[simp] theorem terminateLine_lowCount : (terminateLine s).lowCount = s.lowCount := rfl
@[simp] theorem terminateLine_byteCount : (terminateLine s).byteCount = s.byteCount := rfl
@[simp] theorem terminateLine_bitPos : (terminateLine s).bitPos = s.bitPos := rfl
@[simp] theorem terminateLine_acc : (terminateLine s).acc = s.acc := rfl
@[simp] theorem terminateLine_timerPhase : (terminateLine s).timerPhase = s.timerPhase := rfl
@[simp] theorem terminateLine_slots : (terminateLine s).slots = s.slots := rfl
@[simp] theorem terminateLine_head : (terminateLine s).head = s.head := rfl
@[simp] theorem terminateLine_tail : (terminateLine s).tail = s.tail := rfl
@[simp] theorem terminateLine_errFlags : (terminateLine s).errFlags = s.errFlags := rfl
@[simp] theorem terminateLine_irqEnabled : (terminateLine s).irqEnabled = s.irqEnabled := rfl
@[simp] theorem terminateLine_lineBuf :
    (terminateLine s).lineBuf = s.lineBuf.set s.lineLen.val 0x00#8 := rfl
@[simp] theorem terminateLine_lineLen : (terminateLine s).lineLen = s.lineLen := rfl
@[simp] theorem terminateLine_lineDiscard : (terminateLine s).lineDiscard = s.lineDiscard := rfl
@[simp] theorem terminateLine_connected : (terminateLine s).connected = s.connected := rfl
@[simp] theorem terminateLine_cmdId : (terminateLine s).cmdId = s.cmdId := rfl
@[simp] theorem terminateLine_cmdDlc : (terminateLine s).cmdDlc = s.cmdDlc := rfl
@[simp] theorem terminateLine_timestamp : (terminateLine s).timestamp = s.timestamp := rfl
@[simp] theorem terminateLine_bitrateSel : (terminateLine s).bitrateSel = s.bitrateSel := rfl
@[simp] theorem terminateLine_cfg : (terminateLine s).cfg = s.cfg := rfl
@[simp] theorem terminateLine_txLevel : (terminateLine s).txLevel = s.txLevel := rfl
@[simp] theorem terminateLine_txTrace : (terminateLine s).txTrace = s.txTrace := rfl
@[simp] theorem terminateLine_hostOut : (terminateLine s).hostOut = s.hostOut := rfl
@[simp] theorem terminateLine_boot : (terminateLine s).boot = s.boot := rfl
@[simp] theorem terminateLine_task : (terminateLine s).task = s.task := rfl
@[simp] theorem terminateLine_params : (terminateLine s).params = s.params := rfl
@[simp] theorem terminateLine_serialRx : (terminateLine s).serialRx = s.serialRx := rfl
@[simp] theorem terminateLine_txRoom : (terminateLine s).txRoom = s.txRoom := rfl
@[simp] theorem terminateLine_txPending : (terminateLine s).txPending = s.txPending := rfl
@[simp] theorem terminateLine_errOut : (terminateLine s).errOut = s.errOut := rfl
@[simp] theorem terminateLine_schedule : (terminateLine s).schedule = s.schedule := rfl
@[simp] theorem terminateLine_draws : (terminateLine s).draws = s.draws := rfl

/-! ## resetLine -/

@[simp] theorem resetLine_rxMode : (resetLine s).rxMode = s.rxMode := rfl
@[simp] theorem resetLine_lowCount : (resetLine s).lowCount = s.lowCount := rfl
@[simp] theorem resetLine_byteCount : (resetLine s).byteCount = s.byteCount := rfl
@[simp] theorem resetLine_bitPos : (resetLine s).bitPos = s.bitPos := rfl
@[simp] theorem resetLine_acc : (resetLine s).acc = s.acc := rfl
@[simp] theorem resetLine_timerPhase : (resetLine s).timerPhase = s.timerPhase := rfl
@[simp] theorem resetLine_slots : (resetLine s).slots = s.slots := rfl
@[simp] theorem resetLine_head : (resetLine s).head = s.head := rfl
@[simp] theorem resetLine_tail : (resetLine s).tail = s.tail := rfl
@[simp] theorem resetLine_errFlags : (resetLine s).errFlags = s.errFlags := rfl
@[simp] theorem resetLine_irqEnabled : (resetLine s).irqEnabled = s.irqEnabled := rfl
@[simp] theorem resetLine_lineBuf : (resetLine s).lineBuf = s.lineBuf := rfl
@[simp] theorem resetLine_lineLen : (resetLine s).lineLen = 0 := rfl
@[simp] theorem resetLine_lineDiscard : (resetLine s).lineDiscard = s.lineDiscard := rfl
@[simp] theorem resetLine_connected : (resetLine s).connected = s.connected := rfl
@[simp] theorem resetLine_cmdId : (resetLine s).cmdId = s.cmdId := rfl
@[simp] theorem resetLine_cmdDlc : (resetLine s).cmdDlc = s.cmdDlc := rfl
@[simp] theorem resetLine_timestamp : (resetLine s).timestamp = s.timestamp := rfl
@[simp] theorem resetLine_bitrateSel : (resetLine s).bitrateSel = s.bitrateSel := rfl
@[simp] theorem resetLine_cfg : (resetLine s).cfg = s.cfg := rfl
@[simp] theorem resetLine_txLevel : (resetLine s).txLevel = s.txLevel := rfl
@[simp] theorem resetLine_txTrace : (resetLine s).txTrace = s.txTrace := rfl
@[simp] theorem resetLine_hostOut : (resetLine s).hostOut = s.hostOut := rfl
@[simp] theorem resetLine_boot : (resetLine s).boot = s.boot := rfl
@[simp] theorem resetLine_task : (resetLine s).task = s.task := rfl
@[simp] theorem resetLine_params : (resetLine s).params = s.params := rfl
@[simp] theorem resetLine_serialRx : (resetLine s).serialRx = s.serialRx := rfl
@[simp] theorem resetLine_txRoom : (resetLine s).txRoom = s.txRoom := rfl
@[simp] theorem resetLine_txPending : (resetLine s).txPending = s.txPending := rfl
@[simp] theorem resetLine_errOut : (resetLine s).errOut = s.errOut := rfl
@[simp] theorem resetLine_schedule : (resetLine s).schedule = s.schedule := rfl
@[simp] theorem resetLine_draws : (resetLine s).draws = s.draws := rfl

section
variable (conn : Bool) (id : BitVec 12) (dlc : BitVec 4) (ts : Bool) (br : Option Nat) (used : Nat)
  (task : MainTask)

/-! ## commandWrite -/

@[simp] theorem commandWrite_rxMode :
    (commandWrite conn id dlc ts br used task s).rxMode = s.rxMode := rfl
@[simp] theorem commandWrite_lowCount :
    (commandWrite conn id dlc ts br used task s).lowCount = s.lowCount := rfl
@[simp] theorem commandWrite_byteCount :
    (commandWrite conn id dlc ts br used task s).byteCount = s.byteCount := rfl
@[simp] theorem commandWrite_bitPos :
    (commandWrite conn id dlc ts br used task s).bitPos = s.bitPos := rfl
@[simp] theorem commandWrite_acc : (commandWrite conn id dlc ts br used task s).acc = s.acc := rfl
@[simp] theorem commandWrite_timerPhase :
    (commandWrite conn id dlc ts br used task s).timerPhase = s.timerPhase := rfl
@[simp] theorem commandWrite_slots :
    (commandWrite conn id dlc ts br used task s).slots = s.slots := rfl
@[simp] theorem commandWrite_head :
    (commandWrite conn id dlc ts br used task s).head = s.head := rfl
@[simp] theorem commandWrite_tail :
    (commandWrite conn id dlc ts br used task s).tail = s.tail := rfl
@[simp] theorem commandWrite_errFlags :
    (commandWrite conn id dlc ts br used task s).errFlags = s.errFlags := rfl
@[simp] theorem commandWrite_irqEnabled :
    (commandWrite conn id dlc ts br used task s).irqEnabled = s.irqEnabled := rfl
@[simp] theorem commandWrite_lineBuf :
    (commandWrite conn id dlc ts br used task s).lineBuf = s.lineBuf := rfl
@[simp] theorem commandWrite_lineLen :
    (commandWrite conn id dlc ts br used task s).lineLen = s.lineLen := rfl
@[simp] theorem commandWrite_lineDiscard :
    (commandWrite conn id dlc ts br used task s).lineDiscard = s.lineDiscard := rfl
@[simp] theorem commandWrite_connected :
    (commandWrite conn id dlc ts br used task s).connected = conn := rfl
@[simp] theorem commandWrite_cmdId : (commandWrite conn id dlc ts br used task s).cmdId = id := rfl
@[simp] theorem commandWrite_cmdDlc :
    (commandWrite conn id dlc ts br used task s).cmdDlc = dlc := rfl
@[simp] theorem commandWrite_timestamp :
    (commandWrite conn id dlc ts br used task s).timestamp = ts := rfl
@[simp] theorem commandWrite_bitrateSel :
    (commandWrite conn id dlc ts br used task s).bitrateSel = br := rfl
@[simp] theorem commandWrite_cfg : (commandWrite conn id dlc ts br used task s).cfg = s.cfg := rfl
@[simp] theorem commandWrite_txLevel :
    (commandWrite conn id dlc ts br used task s).txLevel = s.txLevel := rfl
@[simp] theorem commandWrite_txTrace :
    (commandWrite conn id dlc ts br used task s).txTrace = s.txTrace := rfl
@[simp] theorem commandWrite_hostOut :
    (commandWrite conn id dlc ts br used task s).hostOut = s.hostOut := rfl
@[simp] theorem commandWrite_boot :
    (commandWrite conn id dlc ts br used task s).boot = s.boot := rfl
@[simp] theorem commandWrite_task : (commandWrite conn id dlc ts br used task s).task = task := rfl
@[simp] theorem commandWrite_params :
    (commandWrite conn id dlc ts br used task s).params = s.params := rfl
@[simp] theorem commandWrite_serialRx :
    (commandWrite conn id dlc ts br used task s).serialRx = s.serialRx := rfl
@[simp] theorem commandWrite_txRoom :
    (commandWrite conn id dlc ts br used task s).txRoom = s.txRoom := rfl
@[simp] theorem commandWrite_txPending :
    (commandWrite conn id dlc ts br used task s).txPending = s.txPending := rfl
@[simp] theorem commandWrite_errOut :
    (commandWrite conn id dlc ts br used task s).errOut = s.errOut := rfl
@[simp] theorem commandWrite_schedule :
    (commandWrite conn id dlc ts br used task s).schedule = s.schedule := rfl
@[simp] theorem commandWrite_draws :
    (commandWrite conn id dlc ts br used task s).draws = s.draws + used := rfl

end

end Sys2Proof.Machine
end

