-- ==== Sys2Proof/Laws/Decode.lean ====
section
/-! SUPPORT. Small lemmas of the decoder, the encoder and hex digits. -/

namespace Sys2Proof

@[simp] theorem Ascii.nul_eq : Ascii.nul = 0x00#8 := rfl
@[simp] theorem Ascii.bel_eq : Ascii.bel = 0x07#8 := rfl
@[simp] theorem Ascii.lf_eq : Ascii.lf = 0x0A#8 := rfl
@[simp] theorem Ascii.cr_eq : Ascii.cr = 0x0D#8 := rfl

theorem hexval_lt_sixteen (c : Byte) : hexval c < 16 := by
  unfold hexval
  dsimp only
  split_ifs <;> omega

theorem dlcValid_iff (n : Nat) : dlcValid n = true ↔ 1 ≤ n ∧ n ≤ 8 := by simp [dlcValid]

theorem dataDigitCount_of_valid {d : Byte} (h : dlcValid (hexval d) = true) :
    dataDigitCount d = 2 * hexval d := by simp [dataDigitCount, h]

theorem dataDigitCount_of_invalid {d : Byte} (h : dlcValid (hexval d) = false) :
    dataDigitCount d = 0 := by simp [dataDigitCount, h]

theorem storable_iff (c : Byte) :
    storable c = true ↔ c ≠ 0x00#8 ∧ c ≠ 0x0D#8 ∧ c ≠ 0x0A#8 := by
  simp [storable, and_assoc]

/-- Decoding a line is choosing the row of its first byte (30_encoding.md R85). -/
theorem decode_cons (op : Byte) (payload : List Byte) (h : payload.length + 1 ≤ maxLine) :
    decode (op :: payload) = .ok (decodeOp op payload) := by simp [decode, h]

/-- The rows of the opcode map, one equation each. -/
@[simp] theorem decodeOp_upperN (p : List Byte) : decodeOp Ascii.upperN p = .serialNumber p := rfl
@[simp] theorem decodeOp_lowerV (p : List Byte) : decodeOp Ascii.lowerV p = .swVersion p := rfl
@[simp] theorem decodeOp_upperV (p : List Byte) : decodeOp Ascii.upperV p = .hwVersion p := rfl
@[simp] theorem decodeOp_upperO (p : List Byte) : decodeOp Ascii.upperO p = .openSession p := rfl
@[simp] theorem decodeOp_upperC (p : List Byte) : decodeOp Ascii.upperC p = .closeSession p := rfl
@[simp] theorem decodeOp_upperS (p : List Byte) :
    decodeOp Ascii.upperS p = .selectBitrate p.head? p.tail := rfl
@[simp] theorem decodeOp_lowerS (p : List Byte) : decodeOp Ascii.lowerS p = .customBitrate p := rfl
@[simp] theorem decodeOp_upperZ (p : List Byte) :
    decodeOp Ascii.upperZ p = .setTimestamp p.head? p.tail := rfl
@[simp] theorem decodeOp_lowerT (p : List Byte) : decodeOp Ascii.lowerT p = decodeTransmit p := rfl

theorem decodeOp_unlisted {op : Byte} (h : op ∉ listedOpcodes) (p : List Byte) :
    decodeOp op p = .other op p := by
  simp only [listedOpcodes, List.mem_cons, List.not_mem_nil, or_false, not_or] at h
  simp [decodeOp, h]

/-- The fields of a `t` payload that decodeTransmit gives, by the payload's length. -/
theorem decodeTransmit_short {p : List Byte} (h : p.length ≤ 3) :
    decodeTransmit p = .transmit p none [] [] := by
  simp [decodeTransmit, List.drop_eq_nil_of_le h, List.take_of_length_le h]

theorem decodeTransmit_long (a b c d : Byte) (rest : List Byte) :
    decodeTransmit (a :: b :: c :: d :: rest) =
      .transmit [a, b, c] (some d) (rest.take (dataDigitCount d)) (rest.drop (dataDigitCount d)) := rfl

end Sys2Proof
end

