-- ==== Sys2Proof/Laws/Ops.lean ====
section
/-! SUPPORT. What the shared operations do, said once: slots, interrupts, the ring buffer, the pins,
serial output. -/

namespace Sys2Proof.Machine

/-! ## Slots -/

theorem slotAt_eq (k : Fin 8) (s : State) : slotAt k s = s.slots[k.val] := rfl

@[simp] theorem slotAt_setSlot_self (k : Fin 8) (f : Slot) (s : State) :
    slotAt k (setSlot k f s) = f := by simp [slotAt, setSlot]

theorem slotAt_setSlot_ne {j k : Fin 8} (h : j ≠ k) (f : Slot) (s : State) :
    slotAt j (setSlot k f s) = slotAt j s := by
  have h' : k.val ≠ j.val := fun e => h (Fin.ext e.symm)
  simp [slotAt, setSlot, h']

theorem slotFrame_length (f : Slot) : (slotFrame f).length = f.length.val := by
  have := f.length.isLt
  simp [slotFrame]
  omega

/-- Appending to a slot that is not full adds one byte at the end (40_receiver.md R129). -/
theorem slotAppend_length {f : Slot} (b : Byte) (h : f.length.val < 10) :
    (slotAppend b f).length.val = f.length.val + 1 := by simp [slotAppend, h]

theorem slotFrame_slotAppend {f : Slot} (b : Byte) (h : f.length.val < 10) :
    slotFrame (slotAppend b f) = slotFrame f ++ [b] := by
  have hl : f.bytes.toList.length = 10 := by simp
  have hm : min f.length.val 10 = f.length.val := by omega
  simp [slotAppend, h, slotFrame, Vector.toList_set, List.set_eq_take_append_cons_drop,
    List.take_append, List.take_take, hm]

/-! ## Interrupts -/

/-- Everything taking the interrupt can do (60_exceptions.md R313). -/
theorem takeInterrupt_cases (h : State → State) (s : State) :
    (s.irqEnabled = true ∧ takeInterrupt h s = h s) ∨
      (s.irqEnabled = false ∧ takeInterrupt h s = s) := by
  cases hi : s.irqEnabled <;> simp [takeInterrupt, interruptReturn, hi]

theorem tick_enabled {s : State} (h : s.irqEnabled = true) (l : Level) (w1 w2 : Wait) :
    tick l w1 w2 s = receiverTick l w1 w2 s := by
  simp [tick, takeInterrupt, interruptReturn, h]

/-! ## The ring buffer -/

theorem waiting_length (s : State) : (waiting s).length = waitingCount s := by simp [waiting]

theorem waitingCount_eq_zero (s : State) : waitingCount s = 0 ↔ s.head = s.tail := by
  simp only [waitingCount, Fin.val_eq_zero_iff, sub_eq_zero]

/-! ## The TX pin -/

theorem drive_drive (l : Level) (m n : Nat) (k : Level) (s : State) :
    drive l m (drive k n s) =
      { s with
        txTrace := s.txTrace ++ List.replicate n k ++ List.replicate m l, txLevel := l } := rfl

theorem wireByte_length (b : Byte) : (wireByte b).length = 10 := rfl

theorem wireBytes_length (bytes : List Byte) : (wireBytes bytes).length = 10 * bytes.length := by
  induction bytes with
  | nil => rfl
  | cons b bs ih =>
    simp only [wireBytes, List.map_cons, List.flatten_cons, List.length_append, wireByte_length,
      List.length_cons] at ih ⊢
    omega

/-- TxByte drives the ten levels of its byte and leaves the line high (43_transmitter.md R200). -/
theorem txByte_eq (b : Byte) (s : State) :
    txByte b s = { s with txTrace := s.txTrace ++ wireByte b, txLevel := .high } := by
  simp [txByte, drive, wireByte, List.range_succ]

/-! ## Serial output -/

theorem txAccept_ample (p : TxFullPolicy) (bytes : List Byte) :
    txAccept p .ample bytes = (bytes, [], .ample) := rfl

theorem txAccept_free (p : TxFullPolicy) (n : Nat) (bytes : List Byte) :
    txAccept p (.free n) bytes =
      (bytes.take n, (match p with | .block => bytes.drop n | .drop => []),
        .free (n - bytes.length)) := rfl

/-- Under `block` no byte is lost (92_eei_decisions.md D19). -/
theorem txAccept_block (room : TxRoom) (bytes : List Byte) :
    (txAccept .block room bytes).1 ++ (txAccept .block room bytes).2.1 = bytes := by
  cases room <;> simp [txAccept]

/-- Under `drop` no byte waits (92_eei_decisions.md D19). -/
theorem txAccept_drop (room : TxRoom) (bytes : List Byte) :
    (txAccept .drop room bytes).2.1 = [] := by cases room <;> simp [txAccept]

/-- What waits, waits under `block` and for a full queue. -/
theorem txAccept_waits (p : TxFullPolicy) (room : TxRoom) (bytes : List Byte)
    (h : (txAccept p room bytes).2.1 ≠ []) : p = .block ∧ (txAccept p room bytes).2.2 = .free 0 := by
  cases room with
  | ample => simp [txAccept] at h
  | free n =>
    cases p with
    | drop => simp [txAccept] at h
    | block =>
      simp [txAccept] at h ⊢
      omega

end Sys2Proof.Machine
end

