-- ==== Sys2Proof/Laws/Transmitter.lean ====
section
/-! SUPPORT. What a transmission touches (43_transmitter.md R204, R207). -/

namespace Sys2Proof.Machine

/-- Sending bytes one after the other only appends to the trace and moves the pin. -/
theorem txBytes_touches (data : List Byte) (s : State) : ∃ levels l,
    data.foldl (fun s d => txByte d s) s = { s with txTrace := s.txTrace ++ levels, txLevel := l } := by
  induction data generalizing s with
  | nil => exact ⟨[], s.txLevel, by simp⟩
  | cons d ds ih =>
    obtain ⟨levels, l, h⟩ := ih (txByte d s)
    exact ⟨wireByte d ++ levels, l, by rw [List.foldl_cons, h, txByte_eq]; simp⟩

/-- A transmission appends to the trace, leaves the line high and the mask open, and touches nothing
else. -/
theorem transmitFrame_touches (addr : Byte) (data : List Byte) (s : State) : ∃ levels,
    transmitFrame addr data s =
      { s with txTrace := s.txTrace ++ levels, txLevel := .high, irqEnabled := true } := by
  obtain ⟨levels, l, h⟩ :=
    txBytes_touches data (txByte (pid (addr &&& 0x3F#8)) (txBreakSync (disableIrq s)))
  refine ⟨List.replicate txBreakBits .low ++ List.replicate txBreakDelimiterBits .high ++
    wireByte syncValue ++ wireByte (pid (addr &&& 0x3F#8)) ++ levels ++
    wireByte (txChecksum (pid (addr &&& 0x3F#8) :: data)), ?_⟩
  simp only [transmitFrame, h]
  simp only [txByte_eq, txBreakSync, drive, disableIrq, enableIrq, List.append_assoc]

section
variable (addr : Byte) (data : List Byte) (s : State)

@[simp] theorem transmitFrame_txLevel : (transmitFrame addr data s).txLevel = .high := by
  obtain ⟨_, h⟩ := transmitFrame_touches addr data s
  rw [h]

@[simp] theorem transmitFrame_irqEnabled : (transmitFrame addr data s).irqEnabled = true := rfl

@[simp] theorem transmitFrame_rxMode : (transmitFrame addr data s).rxMode = s.rxMode := by
  obtain ⟨_, h⟩ := transmitFrame_touches addr data s
  rw [h]

@[simp] theorem transmitFrame_lowCount : (transmitFrame addr data s).lowCount = s.lowCount := by
  obtain ⟨_, h⟩ := transmitFrame_touches addr data s
  rw [h]

@[simp] theorem transmitFrame_byteCount : (transmitFrame addr data s).byteCount = s.byteCount := by
  obtain ⟨_, h⟩ := transmitFrame_touches addr data s
  rw [h]

@[simp] theorem transmitFrame_bitPos : (transmitFrame addr data s).bitPos = s.bitPos := by
  obtain ⟨_, h⟩ := transmitFrame_touches addr data s
  rw [h]

@[simp] theorem transmitFrame_acc : (transmitFrame addr data s).acc = s.acc := by
  obtain ⟨_, h⟩ := transmitFrame_touches addr data s
  rw [h]

@[simp] theorem transmitFrame_timerPhase : (transmitFrame addr data s).timerPhase = s.timerPhase := by
  obtain ⟨_, h⟩ := transmitFrame_touches addr data s
  rw [h]

@[simp] theorem transmitFrame_slots : (transmitFrame addr data s).slots = s.slots := by
  obtain ⟨_, h⟩ := transmitFrame_touches addr data s
  rw [h]

@[simp] theorem transmitFrame_head : (transmitFrame addr data s).head = s.head := by
  obtain ⟨_, h⟩ := transmitFrame_touches addr data s
  rw [h]

@[simp] theorem transmitFrame_tail : (transmitFrame addr data s).tail = s.tail := by
  obtain ⟨_, h⟩ := transmitFrame_touches addr data s
  rw [h]

@[simp] theorem transmitFrame_errFlags : (transmitFrame addr data s).errFlags = s.errFlags := by
  obtain ⟨_, h⟩ := transmitFrame_touches addr data s
  rw [h]

@[simp] theorem transmitFrame_lineBuf : (transmitFrame addr data s).lineBuf = s.lineBuf := by
  obtain ⟨_, h⟩ := transmitFrame_touches addr data s
  rw [h]

@[simp] theorem transmitFrame_lineLen : (transmitFrame addr data s).lineLen = s.lineLen := by
  obtain ⟨_, h⟩ := transmitFrame_touches addr data s
  rw [h]

@[simp] theorem transmitFrame_lineDiscard : (transmitFrame addr data s).lineDiscard = s.lineDiscard := by
  obtain ⟨_, h⟩ := transmitFrame_touches addr data s
  rw [h]

@[simp] theorem transmitFrame_connected : (transmitFrame addr data s).connected = s.connected := by
  obtain ⟨_, h⟩ := transmitFrame_touches addr data s
  rw [h]

@[simp] theorem transmitFrame_cmdId : (transmitFrame addr data s).cmdId = s.cmdId := by
  obtain ⟨_, h⟩ := transmitFrame_touches addr data s
  rw [h]

@[simp] theorem transmitFrame_cmdDlc : (transmitFrame addr data s).cmdDlc = s.cmdDlc := by
  obtain ⟨_, h⟩ := transmitFrame_touches addr data s
  rw [h]

@[simp] theorem transmitFrame_timestamp : (transmitFrame addr data s).timestamp = s.timestamp := by
  obtain ⟨_, h⟩ := transmitFrame_touches addr data s
  rw [h]

@[simp] theorem transmitFrame_bitrateSel : (transmitFrame addr data s).bitrateSel = s.bitrateSel := by
  obtain ⟨_, h⟩ := transmitFrame_touches addr data s
  rw [h]

@[simp] theorem transmitFrame_cfg : (transmitFrame addr data s).cfg = s.cfg := by
  obtain ⟨_, h⟩ := transmitFrame_touches addr data s
  rw [h]

@[simp] theorem transmitFrame_hostOut : (transmitFrame addr data s).hostOut = s.hostOut := by
  obtain ⟨_, h⟩ := transmitFrame_touches addr data s
  rw [h]

@[simp] theorem transmitFrame_boot : (transmitFrame addr data s).boot = s.boot := by
  obtain ⟨_, h⟩ := transmitFrame_touches addr data s
  rw [h]

@[simp] theorem transmitFrame_task : (transmitFrame addr data s).task = s.task := by
  obtain ⟨_, h⟩ := transmitFrame_touches addr data s
  rw [h]

@[simp] theorem transmitFrame_params : (transmitFrame addr data s).params = s.params := by
  obtain ⟨_, h⟩ := transmitFrame_touches addr data s
  rw [h]

@[simp] theorem transmitFrame_serialRx : (transmitFrame addr data s).serialRx = s.serialRx := by
  obtain ⟨_, h⟩ := transmitFrame_touches addr data s
  rw [h]

@[simp] theorem transmitFrame_txRoom : (transmitFrame addr data s).txRoom = s.txRoom := by
  obtain ⟨_, h⟩ := transmitFrame_touches addr data s
  rw [h]

@[simp] theorem transmitFrame_txPending : (transmitFrame addr data s).txPending = s.txPending := by
  obtain ⟨_, h⟩ := transmitFrame_touches addr data s
  rw [h]

@[simp] theorem transmitFrame_errOut : (transmitFrame addr data s).errOut = s.errOut := by
  obtain ⟨_, h⟩ := transmitFrame_touches addr data s
  rw [h]

@[simp] theorem transmitFrame_schedule : (transmitFrame addr data s).schedule = s.schedule := by
  obtain ⟨_, h⟩ := transmitFrame_touches addr data s
  rw [h]

@[simp] theorem transmitFrame_draws : (transmitFrame addr data s).draws = s.draws := by
  obtain ⟨_, h⟩ := transmitFrame_touches addr data s
  rw [h]

end

end Sys2Proof.Machine
end

