-- ==== Sys2Proof/Laws/Command.lean ====
section
/-! SUPPORT. Everything a command can do, said once. -/

namespace Sys2Proof.Machine

theorem commandWrite_self (s : State) :
    commandWrite s.connected s.cmdId s.cmdDlc s.timestamp s.bitrateSel 0 s.task s = s := rfl

theorem bitrateDigit_known {c : Byte} {d : Nat} (h : bitrateDigit c = some d) : d ≤ 8 ∧ d ≠ 7 := by
  unfold bitrateDigit at h
  split at h
  · injection h with h
    omega
  · cases h

/-- A command answers a next state: it writes its fields and replies, or it is a `t` without a reply, which
on a connected session may leave its transmission to the next unit (44_command_protocol.md R225 to R235). -/
theorem exec_cases (i : Instr) (s : State) :
    ∃ conn id dlc ts br used task u, u = commandWrite conn id dlc ts br used task s ∧
      (∀ d, br = some d → s.bitrateSel = some d ∨ (d ≤ 8 ∧ d ≠ 7)) ∧
      ((task = s.task ∧ ∃ bytes, exec i s = .next (emit bytes u)) ∨
        (task = s.task ∧ exec i s = .next u) ∨
        (∃ addr data, task = .transmitting addr data ∧ s.connected = true ∧ conn = true ∧
          (∃ a b c d, i = .transmit a b c d) ∧ 1 ≤ data.length ∧ data.length ≤ 8 ∧
          exec i s = .next u)) := by
  have self := (commandWrite_self s).symm
  have old : ∀ d, s.bitrateSel = some d → s.bitrateSel = some d ∨ (d ≤ 8 ∧ d ≠ 7) := fun d h => .inl h
  have replied {u : State} (h : exec i s = .next u) (hu : ∃ bytes, u = emit bytes s) :
      ∃ conn id dlc ts br used task u, u = commandWrite conn id dlc ts br used task s ∧
        (∀ d, br = some d → s.bitrateSel = some d ∨ (d ≤ 8 ∧ d ≠ 7)) ∧
        ((task = s.task ∧ ∃ bytes, exec i s = .next (emit bytes u)) ∨
          (task = s.task ∧ exec i s = .next u) ∨
          (∃ addr data, task = .transmitting addr data ∧ s.connected = true ∧ conn = true ∧
            (∃ a b c d, i = .transmit a b c d) ∧ 1 ≤ data.length ∧ data.length ≤ 8 ∧
            exec i s = .next u)) := by
    obtain ⟨bytes, rfl⟩ := hu
    exact ⟨_, _, _, _, _, _, _, _, self, old, .inl ⟨rfl, _, h⟩⟩
  cases i with
  | serialNumber p => exact replied rfl ⟨_, rfl⟩
  | swVersion p => exact replied rfl ⟨_, rfl⟩
  | hwVersion p => exact replied rfl ⟨_, rfl⟩
  | openSession p =>
    cases p with
    | nil =>
      exact ⟨true, s.cmdId, s.cmdDlc, s.timestamp, s.bitrateSel, 0, s.task, _, rfl, old,
        .inl ⟨rfl, _, rfl⟩⟩
    | cons _ _ => exact replied rfl ⟨_, rfl⟩
  | closeSession p =>
    exact ⟨false, s.cmdId, s.cmdDlc, s.timestamp, s.bitrateSel, 0, s.task, _, rfl, old,
      .inl ⟨rfl, _, rfl⟩⟩
  | selectBitrate digit p =>
    by_cases hc : s.connected = true
    · exact replied (by simp only [exec, execSelectBitrate, hc, if_true]; rfl) ⟨_, rfl⟩
    · cases hd : bitrateDigit (char (digit.toList ++ p) s.draws 1) with
      | some d =>
        exact ⟨s.connected, s.cmdId, s.cmdDlc, s.timestamp, some d, 0, s.task, _, rfl,
          fun e he => .inr (by cases he; exact bitrateDigit_known hd),
          .inl ⟨rfl, _, by simp only [exec, execSelectBitrate, if_neg hc, hd]; rfl⟩⟩
      | none =>
        exact replied (by simp only [exec, execSelectBitrate, if_neg hc, hd]; rfl) ⟨_, rfl⟩
  | customBitrate p =>
    by_cases hc : s.connected = true
    · exact replied (by simp only [exec, execCustomBitrate, if_pos hc]; rfl) ⟨_, rfl⟩
    · exact replied (by simp only [exec, execCustomBitrate, if_neg hc]; rfl) ⟨_, rfl⟩
  | setTimestamp digit p =>
    by_cases hl : (digit.toList ++ p).length + 1 = 2
    · cases hd : timestampDigit (char (digit.toList ++ p) s.draws 1) with
      | some b =>
        exact ⟨s.connected, s.cmdId, s.cmdDlc, b, s.bitrateSel, 0, s.task, _, rfl, old,
          .inl ⟨rfl, _, by simp only [exec, execSetTimestamp, if_pos hl, hd]; rfl⟩⟩
      | none => exact replied (by simp only [exec, execSetTimestamp, if_pos hl, hd]; rfl) ⟨_, rfl⟩
    · exact replied (by simp only [exec, execSetTimestamp, if_neg hl]; rfl) ⟨_, rfl⟩
  | transmit ids len data ign =>
    simp only [exec, execTransmit]
    split
    · rename_i hc
      split
      · rename_i hn
        rw [dlcValid_iff] at hn
        exact ⟨s.connected, _, _, s.timestamp, s.bitrateSel, _, _, _, rfl, old,
          .inr (.inr ⟨_, _, rfl, hc, hc, ⟨_, _, _, _, rfl⟩, by simpa [dataOf] using hn.1,
            by simpa [dataOf] using hn.2, rfl⟩)⟩
      · exact ⟨s.connected, _, _, s.timestamp, s.bitrateSel, _, s.task, _, rfl, old,
          .inr (.inl ⟨rfl, rfl⟩)⟩
    · exact ⟨_, _, _, _, _, _, _, _, self, old, .inr (.inl ⟨rfl, rfl⟩)⟩
  | other op p => exact replied rfl ⟨_, rfl⟩

/-- Every command answers a next state (30_encoding.md R90). -/
theorem exec_next (i : Instr) (s : State) : ∃ t, exec i s = .next t := by
  obtain ⟨_, _, _, _, _, _, _, u, _, _, ⟨_, _, h⟩ | ⟨_, h⟩ | ⟨_, _, _, _, _, _, _, _, h⟩⟩ :=
    exec_cases i s <;> exact ⟨_, h⟩

end Sys2Proof.Machine
end

