-- ==== Sys2Proof/Laws/Line.lean ====
section
/-! SUPPORT. What the line parser and the main loop's steps do, said once. -/

namespace Sys2Proof.Machine

theorem lineOf_length (s : State) : (lineOf s).length = s.lineLen.val := by
  have h := s.lineLen.isLt
  rw [lineOf, List.length_take, Vector.length_toList]
  omega

/-- Writing the NUL terminator leaves the line's characters (44_command_protocol.md R221). -/
@[simp] theorem lineOf_terminateLine (s : State) : lineOf (terminateLine s) = lineOf s := by
  simp [lineOf, terminateLine, Vector.toList_set, List.take_set_of_le]

@[simp] theorem lineOf_resetLine (s : State) : lineOf (resetLine s) = [] := by
  simp [lineOf, resetLine]

/-- A line that is not empty decodes: it has 1 to 25 characters (44_command_protocol.md R222). -/
theorem decode_lineOf {s : State} (h : s.lineLen ≠ 0) : ∃ i, decode (lineOf s) = .ok i := by
  have hl := lineOf_length s
  have hb := s.lineLen.isLt
  cases hq : lineOf s with
  | nil =>
    rw [hq] at hl
    exact absurd (Fin.ext hl.symm) h
  | cons op p =>
    rw [hq] at hl
    simp only [List.length_cons] at hl
    exact ⟨_, decode_cons op p (by simp only [maxLine]; omega)⟩

/-- A used-up line keeps its characters or is empty. -/
theorem endLine_cases (s : State) :
    (s.task = .choosing ∧ endLine s = resetLine s) ∨ (s.task ≠ .choosing ∧ endLine s = s) := by
  by_cases h : s.task = .choosing
  · exact .inl ⟨h, by simp only [endLine, if_pos h]⟩
  · exact .inr ⟨h, by simp only [endLine, if_neg h]⟩

/-- A terminator of a line that decodes runs its instruction and uses the line up when that has ended
(44_command_protocol.md R221, R223). -/
theorem onTerminator_dispatches {s t : State} {i : Instr} (hd : s.lineDiscard = false)
    (hl : s.lineLen ≠ 0) (hi : decode (lineOf s) = .ok i) (ht : exec i (terminateLine s) = .next t) :
    onTerminator s = .next (endLine t) := by
  unfold onTerminator
  rw [if_neg (by simp [hd]), if_neg hl]
  simp only [dispatch, lineOf_terminateLine, hi, ht]

/-- Everything a terminator can do (44_command_protocol.md R221). -/
theorem onTerminator_cases (s : State) :
    (s.lineDiscard = true ∧ onTerminator s = .next { s with lineDiscard := false, lineLen := 0 }) ∨
      (s.lineDiscard = false ∧ s.lineLen = 0 ∧ onTerminator s = .next s) ∨
      (s.lineDiscard = false ∧ s.lineLen ≠ 0 ∧ ∃ i t, decode (lineOf s) = .ok i ∧
        exec i (terminateLine s) = .next t ∧ onTerminator s = .next (endLine t)) := by
  by_cases hd : s.lineDiscard = true
  · exact .inl ⟨hd, by unfold onTerminator; rw [if_pos hd]⟩
  · have hd := Bool.eq_false_iff.mpr hd
    by_cases hl : s.lineLen = 0
    · exact .inr (.inl ⟨hd, hl, by unfold onTerminator; rw [if_neg (by simp [hd]), if_pos hl]⟩)
    · obtain ⟨i, hi⟩ := decode_lineOf hl
      obtain ⟨t, ht⟩ := exec_next i (terminateLine s)
      exact .inr (.inr ⟨hd, hl, i, t, hi, ht, onTerminator_dispatches hd hl hi ht⟩)

/-- Everything a host byte can do (44_command_protocol.md R220). -/
theorem onHostByte_cases (c : Byte) (s : State) :
    (c = 0x00#8 ∧ onHostByte c s = .next s) ∨
      ((c = 0x0D#8 ∨ c = 0x0A#8) ∧ onHostByte c s = onTerminator s) ∨
      (storable c = true ∧ onHostByte c s = .next (onChar c s)) := by
  by_cases h0 : c = Ascii.nul
  · exact .inl ⟨h0, by unfold onHostByte; rw [if_pos h0]⟩
  · by_cases h1 : c = Ascii.cr ∨ c = Ascii.lf
    · exact .inr (.inl ⟨h1, by unfold onHostByte; rw [if_neg h0, if_pos h1]⟩)
    · refine .inr (.inr ⟨?_, by unfold onHostByte; rw [if_neg h0, if_neg h1]⟩)
      rw [not_or] at h1
      exact (storable_iff c).mpr ⟨h0, h1.1, h1.2⟩

/-- A stored character touches the line only (44_command_protocol.md R222). -/
theorem onChar_touches (c : Byte) (s : State) : ∃ b n d,
    onChar c s = { s with lineBuf := b, lineLen := n, lineDiscard := d } := by
  unfold onChar
  split
  · exact ⟨_, _, _, rfl⟩
  · dsimp only
    split <;> exact ⟨_, _, _, rfl⟩

/-- The pop of ForwardOne opens the mask and moves `tail` past the frame it takes, which the main loop then
has as its own; it touches nothing else (45_host_forwarding.md R263). -/
theorem takeFrame_cases (s : State) :
    (s.head = s.tail ∧ takeFrame s = { s with irqEnabled := true }) ∨
      (s.head ≠ s.tail ∧ takeFrame s =
        { s with
          irqEnabled := true, tail := s.tail + 1
          task := .forwarding (slotFrame (slotAt s.tail s)) }) := by
  by_cases h : s.tail = s.head
  · exact .inl ⟨h.symm, by simp [takeFrame, pop, disableIrq, enableIrq, waitForInFlightIsr, h]⟩
  · refine .inr ⟨fun e => h e.symm, ?_⟩
    simp [takeFrame, pop, disableIrq, enableIrq, waitForInFlightIsr, h, slotAt]

/-- The rest of ForwardOne ends the step, and writes the frame's text or nothing (45_host_forwarding.md
R263). -/
theorem forwardFrame_cases (f : List Byte) (s : State) :
    forwardFrame f s = { s with task := .choosing } ∨
      forwardFrame f s = emit (encodeFrame f) { s with task := .choosing } := by
  simp only [forwardFrame]
  split
  · exact .inl rfl
  · split
    · exact .inr rfl
    · exact .inl rfl

/-- Everything the next unit of a step can do (20_memory.md R69). -/
theorem proceed_cases (s : State) :
    ((s.txPending ≠ [] ∨ s.task = .choosing) ∧ proceed s = s) ∨
      (s.txPending = [] ∧ ((∃ addr data, s.task = .transmitting addr data ∧
          proceed s = sendFrame addr data s) ∨
        (s.task = .replying ∧ proceed s = resetLine (replySent s)) ∨
        ∃ f, s.task = .forwarding f ∧ proceed s = forwardFrame f s)) := by
  by_cases hp : s.txPending = []
  · cases ht : s.task with
    | choosing => exact .inl ⟨.inr rfl, by simp only [proceed, if_pos hp, ht]⟩
    | transmitting a d => exact .inr ⟨hp, .inl ⟨a, d, rfl, by simp only [proceed, if_pos hp, ht]⟩⟩
    | replying => exact .inr ⟨hp, .inr (.inl ⟨rfl, by simp only [proceed, if_pos hp, ht]⟩)⟩
    | forwarding f => exact .inr ⟨hp, .inr (.inr ⟨f, rfl, by simp only [proceed, if_pos hp, ht]⟩)⟩
  · exact .inl ⟨.inl hp, by simp only [proceed, if_neg hp]⟩

/-- A step of R265 starts where no write waits and no step is begun, and else nothing happens. -/
theorem whenFree_cases (s : State) (unit : State → Host.Outcome State Fault Refusal) :
    (s.txPending = [] ∧ s.task = .choosing ∧ whenFree s unit = unit s) ∨
      ((s.txPending ≠ [] ∨ s.task ≠ .choosing) ∧ whenFree s unit = .next s) := by
  by_cases h : s.txPending = [] ∧ s.task = .choosing
  · exact .inl ⟨h.1, h.2, by simp only [whenFree, if_pos h]⟩
  · exact .inr ⟨by tauto, by simp only [whenFree, if_neg h]⟩

/-- The next event's state differs from s in the schedule and the draws only. -/
theorem nextEvent_state (s : State) : ∃ rest k,
    (nextEvent s).2 = { s with schedule := rest, draws := k } := by
  unfold nextEvent
  split
  · exact ⟨_, s.draws, rfl⟩
  · exact ⟨s.schedule, s.draws + 1, rfl⟩

/-- Everything a step can do: a boot step, or one event at a state that differs from s in the schedule
and the draws only (20_memory.md R69, 70_reset_and_hazards.md R342). -/
theorem step_cases (s : State) :
    (s.boot ≠ .running ∧ step s = .next (bootStep s)) ∨
      (s.boot = .running ∧ ∃ rest k e u, u = { s with schedule := rest, draws := k } ∧
        step s = runEvent e u) := by
  obtain ⟨rest, k, h⟩ := nextEvent_state s
  cases hb : s.boot with
  | running =>
    exact .inr ⟨rfl, rest, k, (nextEvent s).1, (nextEvent s).2, hb ▸ h, by
      simp only [step, unitStep, hb]⟩
  | fieldsReset => exact .inl ⟨by simp, by simp only [step, unitStep, hb]⟩
  | cfgComputed => exact .inl ⟨by simp, by simp only [step, unitStep, hb]⟩
  | txReleased => exact .inl ⟨by simp, by simp only [step, unitStep, hb]⟩
  | timerStarted => exact .inl ⟨by simp, by simp only [step, unitStep, hb]⟩

end Sys2Proof.Machine
end

