-- ==== Sys2Proof/Laws/Receiver.lean ====
section
/-! SUPPORT. Everything one BitTimer invocation can do, said once. -/

namespace Sys2Proof.Machine

@[simp] theorem setSlot_slotAt (k : Fin 8) (s : State) : setSlot k (slotAt k s) s = s := by
  simp [setSlot, slotAt]

/-- The Receiver's registers and the slot in progress at new values, all else as in s. -/
def receiverWrite (m : RxMode) (low bytes bit : Nat) (a : Byte) (p : TimerPhase) (f : Slot)
    (s : State) : State :=
  setSlot s.head f
    { s with
      rxMode := m, lowCount := low, byteCount := bytes, bitPos := bit, acc := a, timerPhase := p }

theorem receiverWrite_self (s : State) :
    receiverWrite s.rxMode s.lowCount s.byteCount s.bitPos s.acc s.timerPhase (slotAt s.head s) s =
      s := by simp [receiverWrite, setSlot, slotAt]

/-- One invocation writes the Receiver's registers and the slot at head, and then it stops there, or
raises one kind and enters DetectBreak, or hands a frame of at least one byte off and enters DetectBreak
(40_receiver.md R120 to R132). -/
theorem receiverTick_cases (l : Level) (w1 w2 : Wait) (s : State) :
    ∃ (m : RxMode) (low bytes bit : Nat) (a : Byte) (p : TimerPhase) (f : Slot) (u : State),
      u = receiverWrite m low bytes bit a p f s ∧
      (receiverTick l w1 w2 s = u ∨
        (∃ k : RxError, k ≠ .other ∧ receiverTick l w1 w2 s = enterDetectBreak (raise k u)) ∨
        (1 ≤ f.length.val ∧ receiverTick l w1 w2 s = enterDetectBreak (handOff u))) := by
  have self : s = receiverWrite s.rxMode s.lowCount s.byteCount s.bitPos s.acc s.timerPhase
      (slotAt s.head s) s := (receiverWrite_self s).symm
  have wait : ∀ (a : Byte) (bytes : Nat) (f : Slot) (u : State) (w : Wait),
      u = receiverWrite s.rxMode s.lowCount bytes 0 s.acc s.timerPhase f s →
      ∃ (m : RxMode) (low bytes bit : Nat) (a : Byte) (p : TimerPhase) (f : Slot) (v : State),
        v = receiverWrite m low bytes bit a p f s ∧
        (interByteWait w u = v ∨
          (∃ k : RxError, k ≠ .other ∧ interByteWait w u = enterDetectBreak (raise k v)) ∨
          (1 ≤ f.length.val ∧ interByteWait w u = enterDetectBreak (handOff v))) := by
    intro a bytes f u w hu
    have hh : slotAt u.head u = f := by subst hu; simp [receiverWrite, slotAt, setSlot]
    cases w with
    | edge =>
      by_cases hf : f.length.val = frameCapacity
      · exact ⟨_, _, _, _, _, _, f, u, hu,
          .inr (.inl ⟨.frameTooLong, by decide, by simp [interByteWait, nextByte, hh, hf]⟩)⟩
      · exact ⟨s.rxMode, s.lowCount, bytes, 0, s.acc, .centred, f, _, rfl,
          .inl (by simp only [interByteWait, nextByte, hh, hf, if_false]; subst hu; rfl)⟩
    | timeout =>
      by_cases hf : f.length.val < 1
      · exact ⟨_, _, _, _, _, _, f, u, hu,
          .inr (.inl ⟨.frameTooShort, by decide,
            by simp only [interByteWait, frameEnd, hh, hf, if_true]⟩)⟩
      · exact ⟨_, _, _, _, _, _, f, u, hu,
          .inr (.inr ⟨by omega, by simp only [interByteWait, frameEnd, hh, hf, if_false]⟩)⟩
  cases hm : s.rxMode with
  | detectBreak =>
    simp only [receiverTick, hm]
    cases l with
    | high =>
      exact ⟨s.rxMode, 0, s.byteCount, s.bitPos, s.acc, s.timerPhase, slotAt s.head s, _, rfl,
        .inl (by simp [detectBreakTick, receiverWrite, setSlot, slotAt])⟩
    | low =>
      by_cases hl : s.lowCount + 1 = breakLowSamples
      · cases w1 with
        | timeout =>
          exact ⟨.detectBreak, 0, s.byteCount, s.bitPos, s.acc, s.timerPhase, slotAt s.head s, _,
            rfl, .inl (by simp [detectBreakTick, hl, enterDetectBreak, receiverWrite, setSlot, slotAt])⟩
        | edge =>
          cases w2 with
          | edge =>
            exact ⟨.readData, s.lowCount + 1, 0, 0, s.acc, .centred,
              { slotAt s.head s with length := 0 }, _, rfl,
              .inl (by
                simp [detectBreakTick, hl, enterReadData, timerRephase, receiverWrite, setSlot,
                  slotAt])⟩
          | timeout =>
            exact ⟨.detectBreak, 0, 0, 0, s.acc, s.timerPhase,
              { slotAt s.head s with length := 0 }, _, rfl,
              .inl (by
                simp [detectBreakTick, hl, enterReadData, enterDetectBreak, receiverWrite, setSlot,
                  slotAt])⟩
      · exact ⟨s.rxMode, s.lowCount + 1, s.byteCount, s.bitPos, s.acc, s.timerPhase,
          slotAt s.head s, _, rfl, .inl (by simp [detectBreakTick, hl, receiverWrite, setSlot, slotAt])⟩
  | readData =>
    simp only [receiverTick, hm, readDataTick]
    split
    · cases l with
      | low =>
        exact ⟨s.rxMode, s.lowCount, s.byteCount, 1, s.acc, s.timerPhase, slotAt s.head s, _, rfl,
          .inl (by simp [startBitTick, receiverWrite, setSlot, slotAt])⟩
      | high =>
        exact ⟨_, _, _, _, _, _, _, s, self, .inr (.inl ⟨_, by split <;> decide, rfl⟩)⟩
    · split
      · exact ⟨s.rxMode, s.lowCount, s.byteCount, s.bitPos + 1, setBit s.acc (s.bitPos - 1) l,
          s.timerPhase, slotAt s.head s, _, rfl,
          .inl (by simp [dataBitTick, receiverWrite, setSlot, slotAt])⟩
      · cases l with
        | low =>
          exact ⟨_, _, _, _, _, _, _, s, self, .inr (.inl ⟨_, by split <;> decide, rfl⟩)⟩
        | high =>
          simp only [stopBitTick]
          split
          · simp only [syncByteDone]
            split
            · exact ⟨_, _, _, _, _, _, _, s, self, .inr (.inl ⟨.syncByte, by decide, rfl⟩)⟩
            · exact wait s.acc 1 (slotAt s.head s) _ w1 (by simp [receiverWrite, setSlot, slotAt])
          · exact wait s.acc (s.byteCount + 1) (slotAppend s.acc (slotAt s.head s)) _ w1 rfl

end Sys2Proof.Machine
end

