-- ==== Sys2Proof/Laws/MainFields.lean ====
section
/-! SUPPORT. The fields only the main loop writes outside its critical sections, and that a tick neither
reads nor writes them (20_memory.md R69, R74). -/

namespace Sys2Proof.Machine

/-- The main loop's own fields (20_memory.md R74): the line, the session, the serial output, its place. -/
structure MainFields where
  lineBuf : Vector Byte 26
  lineLen : Fin 26
  lineDiscard : Bool
  connected : Bool
  cmdId : BitVec 12
  cmdDlc : BitVec 4
  timestamp : Bool
  bitrateSel : Option Nat
  hostOut : List Byte
  txPending : List Byte
  txRoom : TxRoom
  task : MainTask
  draws : Nat

/-- The main loop's own fields of a state. -/
def mainFields (s : State) : MainFields where
  lineBuf := s.lineBuf
  lineLen := s.lineLen
  lineDiscard := s.lineDiscard
  connected := s.connected
  cmdId := s.cmdId
  cmdDlc := s.cmdDlc
  timestamp := s.timestamp
  bitrateSel := s.bitrateSel
  hostOut := s.hostOut
  txPending := s.txPending
  txRoom := s.txRoom
  task := s.task
  draws := s.draws

/-- The main loop's own fields at new values, all else as in s. -/
def writeMain (m : MainFields) (s : State) : State :=
  { s with
    lineBuf := m.lineBuf, lineLen := m.lineLen, lineDiscard := m.lineDiscard
    connected := m.connected, cmdId := m.cmdId, cmdDlc := m.cmdDlc, timestamp := m.timestamp
    bitrateSel := m.bitrateSel, hostOut := m.hostOut, txPending := m.txPending, txRoom := m.txRoom
    task := m.task, draws := m.draws }

@[simp] theorem writeMain_mainFields (s : State) : writeMain (mainFields s) s = s := rfl
@[simp] theorem mainFields_writeMain (m : MainFields) (s : State) : mainFields (writeMain m s) = m := rfl
@[simp] theorem params_writeMain (m : MainFields) (s : State) : (writeMain m s).params = s.params := rfl

theorem handOff_writeMain (m : MainFields) (s : State) :
    handOff (writeMain m s) = writeMain m (handOff s) := by
  unfold handOff
  change (if s.head + 1 = s.tail then _ else _) = writeMain m (if s.head + 1 = s.tail then _ else _)
  split <;> rfl

theorem interByteWait_writeMain (w : Wait) (m : MainFields) (s : State) :
    interByteWait w (writeMain m s) = writeMain m (interByteWait w s) := by
  cases w with
  | edge =>
    simp only [interByteWait, nextByte]
    change (if (slotAt s.head s).length.val = _ then _ else _) = _
    split <;> rfl
  | timeout =>
    simp only [interByteWait, frameEnd]
    change (if (slotAt s.head s).length.val < _ then _ else _) = _
    split
    · rfl
    · rw [handOff_writeMain]
      rfl

theorem readDataTick_writeMain (l : Level) (w : Wait) (m : MainFields) (s : State) :
    readDataTick l w (writeMain m s) = writeMain m (readDataTick l w s) := by
  simp only [readDataTick]
  change (if s.bitPos = _ then _ else if s.bitPos ≤ 8 then _ else _) = _
  split
  · cases l <;> rfl
  · split
    · rfl
    · cases l with
      | low => rfl
      | high =>
        simp only [stopBitTick]
        change (if s.byteCount = _ then _ else _) = _
        split
        · simp only [syncByteDone]
          change (if s.acc ≠ _ then _ else _) = _
          split
          · rfl
          · rw [← interByteWait_writeMain]
            rfl
        · simp only [frameByteDone]
          rw [← interByteWait_writeMain]
          rfl

theorem detectBreakTick_writeMain (l : Level) (w1 w2 : Wait) (m : MainFields) (s : State) :
    detectBreakTick l w1 w2 (writeMain m s) = writeMain m (detectBreakTick l w1 w2 s) := by
  cases l with
  | high => rfl
  | low =>
    simp only [detectBreakTick]
    change (if s.lowCount + 1 = _ then _ else _) = _
    split
    · cases w1 <;> cases w2 <;> rfl
    · rfl

/-- A tick neither reads nor writes the main loop's own fields (20_memory.md R74). -/
theorem tick_writeMain (l : Level) (w1 w2 : Wait) (m : MainFields) (s : State) :
    tick l w1 w2 (writeMain m s) = writeMain m (tick l w1 w2 s) := by
  unfold tick takeInterrupt interruptReturn receiverTick
  change (if s.irqEnabled = true then
    (match s.rxMode with
      | .detectBreak => detectBreakTick l w1 w2 (writeMain m s)
      | .readData => readDataTick l w1 (writeMain m s)) else writeMain m s) = _
  cases s.irqEnabled with
  | false => rfl
  | true =>
    cases s.rxMode with
    | detectBreak => exact detectBreakTick_writeMain l w1 w2 m s
    | readData => exact readDataTick_writeMain l w1 m s

theorem mainFields_tick (l : Level) (w1 w2 : Wait) (s : State) :
    mainFields (tick l w1 w2 s) = mainFields s := by
  have h := tick_writeMain l w1 w2 (mainFields s) s
  rw [writeMain_mainFields] at h
  rw [h, mainFields_writeMain]

theorem params_tick (l : Level) (w1 w2 : Wait) (s : State) :
    (tick l w1 w2 s).params = s.params := by
  rcases takeInterrupt_cases (receiverTick l w1 w2) s with ⟨_, h⟩ | ⟨_, h⟩
  · obtain ⟨_, _, _, _, _, _, _, _, hu, h' | ⟨_, _, h'⟩ | ⟨_, h'⟩⟩ := receiverTick_cases l w1 w2 s
    · rw [tick, h, h', hu]
      rfl
    · rw [tick, h, h', hu]
      rfl
    · rw [tick, h, h', hu]
      unfold handOff
      dsimp only
      split <;> rfl
  · rw [tick, h]

/-- What is determined by the parameters and the main loop's own fields, and writes only these, commutes with
every tick (20_memory.md R69 (d)). -/
theorem tick_commutes {op : State → State} {g : Params → MainFields → MainFields}
    (h : ∀ s, op s = writeMain (g s.params (mainFields s)) s) (l : Level) (w1 w2 : Wait) (s : State) :
    tick l w1 w2 (op s) = op (tick l w1 w2 s) := by
  rw [h s, h (tick l w1 w2 s), tick_writeMain, mainFields_tick, params_tick]

end Sys2Proof.Machine
end

