-- ==== Sys2Proof/Laws/PerInstr.lean ====
section
/-! SUPPORT. Statements about each instruction as syntax, one lemma per constructor. -/

namespace Sys2Proof.Laws

/-- A well-formed instruction's line is a command byte and at most 24 characters, all of them storable
(30_encoding.md R84, R85; 44_command_protocol.md R222). -/
def LineShape.Statement (i : Instr) : Prop :=
  i.WellFormed → ∃ op payload, encode i = op :: payload ∧ payload.length ≤ 24 ∧
    ∀ c ∈ encode i, storable c = true

theorem lineShape_of_encode {i : Instr} {op : Byte} {payload : List Byte}
    (h : encode i = op :: payload) : LineShape.Statement i := by
  intro hw
  simp only [Instr.WellFormed, Instr.wf, Bool.and_eq_true, decide_eq_true_eq, List.all_eq_true] at hw
  obtain ⟨⟨hl, hs⟩, -⟩ := hw
  refine ⟨op, payload, h, ?_, hs⟩
  rw [h, List.length_cons] at hl
  simp only [maxLine] at hl
  omega

theorem LineShape.serialNumber (ignored : List Byte) :
    LineShape.Statement (.serialNumber ignored) := lineShape_of_encode rfl
theorem LineShape.swVersion (ignored : List Byte) :
    LineShape.Statement (.swVersion ignored) := lineShape_of_encode rfl
theorem LineShape.hwVersion (ignored : List Byte) :
    LineShape.Statement (.hwVersion ignored) := lineShape_of_encode rfl
theorem LineShape.openSession (payload : List Byte) :
    LineShape.Statement (.openSession payload) := lineShape_of_encode rfl
theorem LineShape.closeSession (ignored : List Byte) :
    LineShape.Statement (.closeSession ignored) := lineShape_of_encode rfl
theorem LineShape.selectBitrate (digit : Option Byte) (ignored : List Byte) :
    LineShape.Statement (.selectBitrate digit ignored) := lineShape_of_encode rfl
theorem LineShape.customBitrate (payload : List Byte) :
    LineShape.Statement (.customBitrate payload) := lineShape_of_encode rfl
theorem LineShape.setTimestamp (digit : Option Byte) (extra : List Byte) :
    LineShape.Statement (.setTimestamp digit extra) := lineShape_of_encode rfl
theorem LineShape.transmit (idDigits : List Byte) (lenDigit : Option Byte)
    (dataDigits ignored : List Byte) :
    LineShape.Statement (.transmit idDigits lenDigit dataDigits ignored) := lineShape_of_encode rfl
theorem LineShape.other (op : Byte) (payload : List Byte) :
    LineShape.Statement (.other op payload) := lineShape_of_encode rfl

end Sys2Proof.Laws
end

