-- ==== Sys2Proof/Tests/Slice0.lean ====
section
/-! SUPPORT. Tests: the well-formedness smoke, words written out from the spec's encodings, the vectors of
95_test_vectors.md one step at a time, and the witnesses of the obligations' hypotheses. -/

namespace Sys2Proof.Tests

open Sys2Proof Sys2Proof.Machine

/-! ## Helpers -/

/-- A booted, idle block with concrete contents (95_test_vectors.md, "Reset state"). -/
def idle : State where
  rxMode := .detectBreak
  lowCount := 0
  byteCount := 0
  bitPos := 0
  acc := 0x00#8
  timerPhase := .free
  slots := Vector.replicate 8 { bytes := Vector.replicate 10 0x00#8, length := 0 }
  head := 0
  tail := 0
  errFlags := 0x00#8
  irqEnabled := true
  lineBuf := Vector.replicate 26 0x00#8
  lineLen := 0
  lineDiscard := false
  connected := false
  cmdId := 0#12
  cmdDlc := 0#4
  timestamp := false
  bitrateSel := none
  cfg := { prescale := 0, countsPerBit := 0, countsPerHalfBit := 0, startBitTimeout := 0 }
  txLevel := .high
  txTrace := []
  hostOut := []
  boot := .running
  task := .choosing
  params :=
    { checksumIncludesId := true, overflowDiscardsRest := false, forwardRequiresConnected := false
      txFullPolicy := .block, serialString := [0x41#8], swVersionString := [0x42#8]
      hwVersionString := [0x43#8], baud := 0, tBreakEnd := 0, tSyncStart := 0
      interByteMultiplier := 0, bitrateTable := [] }
  serialRx := []
  txRoom := .ample
  txPending := []
  errOut := []
  schedule := []
  draws := 0

/-- The same block, connected. -/
def open_ : State := { idle with connected := true }

/-- A block in the middle of a frame, at the stop bit. -/
def reading (bytes : Nat) (acc : Byte) (f : Slot) : State :=
  { idle with
    rxMode := .readData, lowCount := 10, byteCount := bytes, bitPos := 9, acc := acc
    timerPhase := .centred, slots := idle.slots.set 0 f }

/-- A slot that holds a frame. -/
def slotOf (bytes : List Byte) : Slot :=
  bytes.foldl (fun f b => slotAppend b f) { bytes := Vector.replicate 10 0x00#8, length := 0 }

/-- A state read out of the outcome of a step. -/
def after {α : Type} (o : Host.Outcome State Fault Refusal) (f : State → α) : Option α :=
  match o with
  | .next t => some (f t)
  | .fault _ => none
  | .refused _ => none

/-- One step that reads the terminator of a line. -/
def runLine {α : Type} (line : List Byte) (s : State) (f : State → α) : Option α :=
  after (step (placeLine line s)) f

/-- Levels written as the digits of a trace. -/
def levels (digits : List Nat) : List Level := digits.map fun d => if d = 0 then .low else .high

/-! ## Well-formedness: an ill-formed term for each check -/

theorem test_wf_refuses_line_of_26 :
    (Instr.customBitrate (List.replicate 25 0x31#8)).wf = false := by decide
theorem test_wf_refuses_NUL : (Instr.closeSession [0x00#8]).wf = false := by decide
theorem test_wf_refuses_CR : (Instr.closeSession [0x0D#8]).wf = false := by decide
theorem test_wf_refuses_LF : (Instr.other 0x0A#8 []).wf = false := by decide
theorem test_wf_refuses_S_rest_without_digit :
    (Instr.selectBitrate none [0x34#8]).wf = false := by decide
theorem test_wf_refuses_Z_rest_without_digit :
    (Instr.setTimestamp none [0x31#8]).wf = false := by decide
theorem test_wf_refuses_listed_opcode_as_other : (Instr.other 0x4E#8 []).wf = false := by decide
theorem test_wf_refuses_t_length_after_two_digits :
    (Instr.transmit [0x30#8, 0x30#8] (some 0x31#8) [] []).wf = false := by decide
theorem test_wf_refuses_t_four_id_digits :
    (Instr.transmit [0x30#8, 0x30#8, 0x30#8, 0x30#8] none [] []).wf = false := by decide
theorem test_wf_refuses_t_data_without_length :
    (Instr.transmit [0x30#8, 0x30#8, 0x30#8] none [0x41#8] []).wf = false := by decide
theorem test_wf_refuses_t_too_much_data :
    (Instr.transmit [0x30#8, 0x30#8, 0x30#8] (some 0x31#8) [0x41#8, 0x42#8, 0x43#8] []).wf =
      false := by decide
theorem test_wf_refuses_t_rest_before_data_ends :
    (Instr.transmit [0x30#8, 0x30#8, 0x30#8] (some 0x31#8) [0x41#8] [0x42#8]).wf = false := by decide
theorem test_wf_refuses_t_rest_without_length :
    (Instr.transmit [0x30#8] none [] [0x42#8]).wf = false := by decide
theorem test_wf_accepts_t_line :
    (Instr.transmit [0x30#8, 0x30#8, 0x41#8] (some 0x31#8) [0x41#8, 0x42#8] [0x43#8]).wf = true := by
  decide

/-! ## Decoding: lines written out from 30_encoding.md R85 to R88 and R97 -/

/-- `N`, 0x4E -/
theorem test_decode_N : decode [0x4E#8] = .ok (.serialNumber []) := by decide
/-- `v1`, 0x76 0x31 -/
theorem test_decode_v : decode [0x76#8, 0x31#8] = .ok (.swVersion [0x31#8]) := by decide
/-- `V`, 0x56 -/
theorem test_decode_V : decode [0x56#8] = .ok (.hwVersion []) := by decide
/-- `O1`, 0x4F 0x31 -/
theorem test_decode_O : decode [0x4F#8, 0x31#8] = .ok (.openSession [0x31#8]) := by decide
/-- `C`, 0x43 -/
theorem test_decode_C : decode [0x43#8] = .ok (.closeSession []) := by decide
/-- `S45`, 0x53 0x34 0x35 -/
theorem test_decode_S :
    decode [0x53#8, 0x34#8, 0x35#8] = .ok (.selectBitrate (some 0x34#8) [0x35#8]) := by decide
/-- `s12`, 0x73 0x31 0x32 -/
theorem test_decode_s : decode [0x73#8, 0x31#8, 0x32#8] = .ok (.customBitrate [0x31#8, 0x32#8]) := by
  decide
/-- `Z0`, 0x5A 0x30 -/
theorem test_decode_Z : decode [0x5A#8, 0x30#8] = .ok (.setTimestamp (some 0x30#8) []) := by decide
/-- `t00A1BBx`: identifier digits, length 1, two data digits, the rest -/
theorem test_decode_t :
    decode [0x74#8, 0x30#8, 0x30#8, 0x41#8, 0x31#8, 0x42#8, 0x42#8, 0x78#8] =
      .ok (.transmit [0x30#8, 0x30#8, 0x41#8] (some 0x31#8) [0x42#8, 0x42#8] [0x78#8]) := by decide
/-- `t0A2AABB`, the literal line of 90_conflicts.md C7: length digit A is 10, so no data digits -/
theorem test_decode_t_length_ten :
    decode [0x74#8, 0x30#8, 0x41#8, 0x32#8, 0x41#8, 0x41#8] =
      .ok (.transmit [0x30#8, 0x41#8, 0x32#8] (some 0x41#8) [] [0x41#8]) := by decide
/-- `X`, not listed -/
theorem test_decode_other : decode [0x58#8] = .ok (.other 0x58#8 []) := by decide
/-- the opcode is case-sensitive: `o` is not `O` (R85) -/
theorem test_decode_case : decode [0x6F#8] = .ok (.other 0x6F#8 []) := by decide
theorem test_decode_empty : decode [] = .error .emptyLine := by decide
theorem test_decode_26 : decode (List.replicate 26 0x4E#8) = .error .overlongLine := by decide

/-! ## Commands: vectors of 95_test_vectors.md section 6, one step each -/

/-- CP1 and CP2 -/
theorem test_N_replies_string :
    runLine [0x4E#8, 0x78#8] idle (fun t => (t.hostOut, t.lineLen)) = some ([0x41#8], 0) := by decide
/-- CP3 -/
theorem test_v_replies_string : runLine [0x76#8] idle (·.hostOut) = some [0x42#8] := by decide
/-- CP4 -/
theorem test_V_replies_string : runLine [0x56#8] idle (·.hostOut) = some [0x43#8] := by decide
/-- CP5 -/
theorem test_O_connects :
    runLine [0x4F#8] idle (fun t => (t.hostOut, t.connected)) = some ([0x0D#8], true) := by decide
/-- CP7 -/
theorem test_O_with_payload :
    runLine [0x4F#8, 0x31#8] idle (fun t => (t.hostOut, t.connected)) = some ([0x07#8], false) := by
  decide
/-- CP8 -/
theorem test_C_disconnects :
    runLine [0x43#8] open_ (fun t => (t.hostOut, t.connected)) = some ([0x0D#8], false) := by decide
/-- CP14 -/
theorem test_S_eight :
    runLine [0x53#8, 0x38#8] idle (fun t => (t.hostOut, t.bitrateSel)) = some ([0x0D#8], some 8) := by
  decide
/-- CP13 -/
theorem test_S_seven :
    runLine [0x53#8, 0x37#8] idle (fun t => (t.hostOut, t.bitrateSel)) = some ([0x07#8], none) := by
  decide
/-- CP20 -/
theorem test_s_closed : runLine [0x73#8] idle (·.hostOut) = some [0x0D#8] := by decide
/-- CP22 -/
theorem test_s_open : runLine [0x73#8] open_ (·.hostOut) = some [0x07#8] := by decide
/-- CP24 -/
theorem test_Z_one :
    runLine [0x5A#8, 0x31#8] idle (fun t => (t.hostOut, t.timestamp)) = some ([0x0D#8], true) := by
  decide
/-- CP28 -/
theorem test_Z_three_characters :
    runLine [0x5A#8, 0x31#8, 0x30#8] idle (fun t => (t.hostOut, t.timestamp)) =
      some ([0x07#8], false) := by decide
/-- L1-5 and CP30: `t00A2AABB` transmits address 0x0A with AA BB next, its CR still to come -/
theorem test_t_decodes_fields :
    runLine [0x74#8, 0x30#8, 0x30#8, 0x41#8, 0x32#8, 0x41#8, 0x41#8, 0x42#8, 0x42#8] open_
      (fun t => (t.hostOut, t.cmdId, t.cmdDlc, t.task)) =
      some ([], 0x00A#12, 2#4, .transmitting 0x0A#8 [0xAA#8, 0xBB#8]) := by decide
/-- TX3: the transmission's unit sends 55 CA AA BB CE -/
theorem test_transmission_unit :
    after (step { open_ with
        task := .transmitting 0x0A#8 [0xAA#8, 0xBB#8], schedule := [.proceed] })
      (fun t => (t.txTrace, t.task, t.hostOut)) =
      some (levels
        [0,0,0,0,0,0,0,0,0,0,0,0,0, 1, 0,1,0,1,0,1,0,1,0,1, 0,0,1,0,1,0,0,1,1,1,
          0,0,1,0,1,0,1,0,1,1, 0,1,1,0,1,1,1,0,1,1, 0,0,1,1,1,0,0,1,1,1],
        .replying, []) := by decide
/-- CP30: the CR after the transmission -/
theorem test_reply_unit :
    after (step { open_ with lineLen := 9, task := .replying, schedule := [.proceed] })
      (fun t => (t.hostOut, t.task, t.lineLen)) = some ([0x0D#8], .choosing, 0) := by decide
/-- CP31: `t0A2AABB` gives identifier 0x0A2, length 10, no transmission and no reply -/
theorem test_t_length_ten :
    runLine [0x74#8, 0x30#8, 0x41#8, 0x32#8, 0x41#8, 0x41#8, 0x42#8, 0x42#8] open_
      (fun t => (t.hostOut, t.cmdId, t.cmdDlc, t.task)) =
      some ([], 0x0A2#12, 10#4, .choosing) := by decide
/-- L1-6 -/
theorem test_other_replies_bel : runLine [0x58#8] idle (·.hostOut) = some [0x07#8] := by decide

/-! ## Placing a table word: the first step after reset runs it -/

theorem test_withFetchWord_other :
    after (step (State.reset.withFetchWord 8 0x58)) (·.hostOut) = some [0x07#8] := by decide
theorem test_decodeTableWord_zero : decodeTableWord 8 0 = some (.other 0x00#8 []) := by decide

/-! ## Receiver: vectors of 95_test_vectors.md section 2, their last tick -/

/-- RX1: the inter-byte timeout after the last byte -/
theorem test_rx_frame_handed_off :
    (fun t : State => (t.head, t.errFlags, slotFrame (slotAt 0 t), t.rxMode, t.byteCount))
      (tick .high .timeout .edge (reading 4 0x0B#8 (slotOf [0xC1#8, 0x11#8, 0x22#8]))) =
      (1, 0x00#8, [0xC1#8, 0x11#8, 0x22#8, 0x0B#8], .detectBreak, 5) := by decide
/-- RX2: nine lows and a high are no break -/
theorem test_rx_high_restarts_count :
    (tick .high .edge .edge { idle with lowCount := 9 }).lowCount = 0 := by decide
/-- RX4: sync-start timeout -/
theorem test_rx_sync_start_timeout :
    (fun t : State => (t.rxMode, t.lowCount, t.errFlags, (slotAt 0 t).length))
      (tick .low .edge .timeout { idle with lowCount := 9 }) = (.detectBreak, 0, 0x00#8, 0) := by
  decide
/-- RX7: sync value 0x54 -/
theorem test_rx_sync_value :
    (fun t : State => (t.rxMode, t.errFlags, t.byteCount, t.bitPos))
      (tick .high .edge .edge (reading 0 0x54#8 (slotOf []))) = (.detectBreak, 0x10#8, 0, 9) := by
  decide
/-- RX9: a byte with a low stop bit is never appended -/
theorem test_rx_stop_bit_low :
    (fun t : State => (t.errFlags, (slotAt 0 t).length, t.byteCount, t.bitPos))
      (tick .low .edge .edge (reading 1 0xC1#8 (slotOf []))) = (0x08#8, 0, 1, 9) := by decide
/-- RX10: no byte after the sync byte -/
theorem test_rx_frame_too_short :
    (fun t : State => (t.errFlags, t.head, t.byteCount, t.bitPos))
      (tick .high .timeout .edge (reading 0 0x55#8 (slotOf []))) = (0x01#8, 0, 1, 0) := by decide
/-- RX12: an eleventh frame byte starts -/
theorem test_rx_frame_too_long :
    (fun t : State => (t.errFlags, t.head, (slotAt 0 t).length, t.byteCount))
      (tick .high .edge .edge (reading 10 0x09#8 (slotOf
        [0x00#8, 0x01#8, 0x02#8, 0x03#8, 0x04#8, 0x05#8, 0x06#8, 0x07#8, 0x08#8]))) =
      (0x02#8, 0, 10, 11) := by decide
/-- a data bit: bit 7 of the accumulator at bit position 8 -/
theorem test_rx_data_bit :
    (fun t : State => (t.acc, t.bitPos))
      (tick .high .edge .edge { reading 1 0x41#8 (slotOf []) with bitPos := 8 }) = (0xC1#8, 9) := by
  decide

/-! ## Ring buffer and error byte: section 4 -/

/-- RB3 -/
theorem test_ring_overrun :
    (fun t : State => (t.head, t.tail, t.errFlags)) (handOff { idle with head := 7 }) =
      (0, 1, 0x20#8) := by decide
/-- RB5 -/
theorem test_ring_wrap :
    (fun t : State => (t.head, t.tail, t.errFlags)) (handOff { idle with head := 7, tail := 7 }) =
      (0, 7, 0x00#8) := by decide
/-- RB8 -/
theorem test_errors_read_and_cleared :
    (fun r : Byte × State => (r.1, r.2.errFlags, r.2.hostOut))
      (readAndClearErrors { idle with errFlags := 0x21#8 }) = (0x21#8, 0x00#8, []) := by decide

/-! ## Validator, Transmitter, encoder: sections 1, 3, 5 and 7 -/

/-- L1-1 -/
theorem test_pid_table :
    [0x00#8, 0x01#8, 0x02#8, 0x0A#8, 0x15#8, 0x20#8, 0x30#8, 0x3C#8, 0x3F#8].map pid =
      [0x80#8, 0xC1#8, 0x42#8, 0xCA#8, 0x55#8, 0x20#8, 0xF0#8, 0x3C#8, 0xBF#8] := by decide
/-- section 3 -/
theorem test_checksum_vectors :
    [[], [0xFF#8], [0xFF#8, 0xFF#8], [0x80#8, 0x80#8], [0xCA#8, 0xAA#8, 0xBB#8]].map checksum =
      [0xFF#8, 0x00#8, 0x00#8, 0xFE#8, 0xCE#8] := by decide
/-- the longest frame of section 3 -/
theorem test_txChecksum_long :
    txChecksum [0xBF#8, 0xFF#8, 0xFF#8, 0xFF#8, 0xFF#8, 0xFF#8, 0xFF#8, 0xFF#8, 0xFF#8] = 0x40#8 := by
  decide
/-- L1-2, L1-3 and section 3 -/
theorem test_isValid_vectors :
    isValid true [0xCA#8, 0xAA#8, 0xBB#8, 0xCE#8] = true ∧
      isValid true [0x80#8, 0xFF#8, 0x7F#8] = true ∧ isValid true [0xC1#8, 0x3E#8] = false ∧
      isValid true [0xC1#8] = true ∧ isValid true [0x01#8] = false ∧ isValid true [] = false ∧
      isValid false [0xC1#8, 0x11#8, 0x22#8, 0xCC#8] = true ∧
      isValid false [0xC1#8, 0x11#8, 0x22#8, 0x0B#8] = false := by decide
/-- TX2 -/
theorem test_header_waveform :
    (transmitHeader 0x01#8 idle).txTrace = levels
      [0,0,0,0,0,0,0,0,0,0,0,0,0, 1, 0,1,0,1,0,1,0,1,0,1, 0,1,0,0,0,0,0,1,1,1] := by decide
/-- L1-7: the text is `tc1 211220b` and CR -/
theorem test_encodeFrame :
    encodeFrame [0xC1#8, 0x11#8, 0x22#8, 0x0B#8] =
      [0x74#8, 0x63#8, 0x31#8, 0x20#8, 0x32#8, 0x31#8, 0x31#8, 0x32#8, 0x32#8, 0x30#8, 0x62#8,
        0x0D#8] := by decide
/-- RB2 by one step: the pop of ForwardOne takes the frame and writes nothing -/
theorem test_take_frame_step :
    after (step { idle with
        head := 1, slots := idle.slots.set 0 (slotOf [0xC1#8, 0x11#8, 0x22#8, 0x0B#8])
        schedule := [.forward] }) (fun t => (t.hostOut, t.tail, t.task)) =
      some ([], 1, .forwarding [0xC1#8, 0x11#8, 0x22#8, 0x0B#8]) := by decide
/-- FW1 and FW3: the rest of ForwardOne writes a valid frame's text and drops a frame of length 2 -/
theorem test_forward_frame_step :
    after (step { open_ with
        task := .forwarding [0xC1#8, 0x11#8, 0x22#8, 0x0B#8], schedule := [.proceed] })
      (fun t => (t.hostOut, t.task)) =
      some ([0x74#8, 0x63#8, 0x31#8, 0x20#8, 0x32#8, 0x31#8, 0x31#8, 0x32#8, 0x32#8, 0x30#8, 0x62#8,
        0x0D#8], .choosing) ∧
      after (step { open_ with task := .forwarding [0xC1#8, 0x3E#8], schedule := [.proceed] })
        (fun t => (t.hostOut, t.task)) = some ([], .choosing) := by decide
/-- D19 `block`: what waits is written as far as there is room -/
theorem test_drain_partial_room :
    after (step { idle with
        txPending := [0x41#8, 0x42#8, 0x43#8], txRoom := .free 0, schedule := [.txQueue (.free 2)] })
      (fun t => (t.hostOut, t.txPending, t.txRoom)) =
      some ([0x41#8, 0x42#8], [0x43#8], .free 0) := by decide

/-! ## Witnesses: states and operands that meet each obligation's hypotheses, each clause at its bounds -/

/-- A block in the middle of a third byte with one frame waiting, a line begun and a bitrate chosen. -/
def busy : State :=
  { idle with
    rxMode := .readData, lowCount := 10, byteCount := 3, bitPos := 9, acc := 0xA5#8
    timerPhase := .centred, head := 1
    slots := (idle.slots.set 0 (slotOf [0xC1#8])).set 1 (slotOf [0x80#8, 0x7F#8])
    lineBuf := idle.lineBuf.set 0 0x53#8, lineLen := 1, bitrateSel := some 8
    serialRx := [0x0D#8], schedule := [.tick .high .timeout .edge] }

/-- A slot that holds nine bytes. -/
def nine : Slot :=
  slotOf [0x00#8, 0x01#8, 0x02#8, 0x03#8, 0x04#8, 0x05#8, 0x06#8, 0x07#8, 0x08#8]

/-- The data digits of eight bytes. -/
def sixteenDigits : List Byte := List.replicate 16 0x31#8

theorem witness_DecodeInvertsEncode :
    (Instr.serialNumber (List.replicate 24 0x31#8)).WellFormed ∧ (Instr.swVersion []).WellFormed ∧
      (Instr.hwVersion [0xFF#8]).WellFormed ∧ (Instr.openSession []).WellFormed ∧
      (Instr.closeSession [0x01#8]).WellFormed ∧ (Instr.selectBitrate none []).WellFormed ∧
      (Instr.selectBitrate (some 0x37#8) [0x31#8]).WellFormed ∧
      (Instr.customBitrate (List.replicate 24 0x39#8)).WellFormed ∧
      (Instr.setTimestamp none []).WellFormed ∧ (Instr.setTimestamp (some 0x31#8) []).WellFormed ∧
      (Instr.transmit [] none [] []).WellFormed ∧
      (Instr.transmit [0x31#8, 0x32#8, 0x33#8] (some 0x38#8) sixteenDigits
        (List.replicate 4 0x78#8)).WellFormed ∧
      (Instr.transmit [0x31#8, 0x32#8, 0x33#8] (some 0x38#8) [0x31#8] []).WellFormed ∧
      (Instr.other 0x58#8 (List.replicate 24 0x31#8)).WellFormed := by decide

theorem witness_EncodeInvertsDecode :
    decode (0x74#8 :: 0x31#8 :: 0x32#8 :: 0x33#8 :: 0x38#8 :: sixteenDigits ++ [0x78#8]) =
      .ok (.transmit [0x31#8, 0x32#8, 0x33#8] (some 0x38#8) sixteenDigits [0x78#8]) := by decide

theorem witness_EveryStorableLineIsWellFormed :
    (∀ c ∈ [0x58#8], storable c = true) ∧
      (List.replicate 25 0xFF#8).length ≤ 25 ∧
      ∀ c ∈ List.replicate 25 0xFF#8, storable c = true := by decide

theorem witness_UnlistedOpcodeIsOther :
    (List.replicate 24 0x31#8).length ≤ 24 ∧ 0x4E#8 ∈ listedOpcodes ∧ 0x6E#8 ∉ listedOpcodes := by
  decide

theorem witness_HexDigitsDecode :
    [0x2F#8, 0x30#8, 0x39#8, 0x3A#8, 0x40#8, 0x41#8, 0x46#8, 0x47#8, 0x60#8, 0x61#8, 0x66#8,
      0x67#8].map hexval = [0, 0, 9, 0, 0, 10, 15, 0, 0, 10, 15, 0] := by decide

theorem witness_HighSampleRestartsBreakCount :
    idle.irqEnabled = true ∧ idle.rxMode = .detectBreak := by decide

theorem witness_TenthLowSampleRecognisesBreak :
    (fun s : State => s.irqEnabled = true ∧ s.rxMode = .detectBreak ∧ s.lowCount + 1 ≠ 10)
        { idle with lowCount := 8 } ∧
      (fun s : State => s.irqEnabled = true ∧ s.rxMode = .detectBreak ∧ s.lowCount + 1 = 10)
        { idle with lowCount := 9 } := by decide

theorem witness_StartBitMustBeLow :
    (fun s : State => s.irqEnabled = true ∧ s.rxMode = .readData ∧ s.bitPos = 0 ∧ s.byteCount = 0)
        { reading 0 0x00#8 (slotOf []) with bitPos := 0 } ∧
      (fun s : State => s.irqEnabled = true ∧ s.rxMode = .readData ∧ s.bitPos = 0 ∧ s.byteCount ≠ 0)
        { reading 1 0x00#8 (slotOf []) with bitPos := 0 } := by decide

theorem witness_DataBitWritesAccumulatorBit :
    (fun s : State => s.irqEnabled = true ∧ s.rxMode = .readData ∧ s.bitPos = 1)
        { reading 0 0x00#8 (slotOf []) with bitPos := 1 } ∧
      (fun s : State => s.irqEnabled = true ∧ s.rxMode = .readData ∧ s.bitPos = 8)
        { reading 0 0x00#8 (slotOf []) with bitPos := 8 } := by decide

theorem witness_StopBitMustBeHigh :
    (fun s : State => s.irqEnabled = true ∧ s.rxMode = .readData ∧ s.bitPos = 9 ∧ s.byteCount = 0)
        (reading 0 0x55#8 (slotOf [])) ∧
      (fun s : State => s.irqEnabled = true ∧ s.rxMode = .readData ∧ s.bitPos = 9 ∧ s.byteCount ≠ 0)
        (reading 1 0x55#8 (slotOf [])) := by decide

theorem witness_SyncByteIsCheckedNotStored :
    (fun s : State => s.irqEnabled = true ∧ s.rxMode = .readData ∧ s.bitPos = 9 ∧ s.byteCount = 0 ∧
        (slotAt s.head s).length.val = 0 ∧ s.acc = 0x55#8) (reading 0 0x55#8 (slotOf [])) ∧
      (fun s : State => s.irqEnabled = true ∧ s.rxMode = .readData ∧ s.bitPos = 9 ∧ s.byteCount = 0 ∧
        (slotAt s.head s).length.val = 0 ∧ s.acc ≠ 0x55#8) (reading 0 0x54#8 (slotOf [])) := by decide

theorem witness_FrameByteIsAppended :
    (fun s : State => s.irqEnabled = true ∧ s.rxMode = .readData ∧ s.bitPos = 9 ∧ 1 ≤ s.byteCount ∧
        (slotAt s.head s).length.val = 0) (reading 1 0xC1#8 (slotOf [])) ∧
      (fun s : State => s.irqEnabled = true ∧ s.rxMode = .readData ∧ s.bitPos = 9 ∧ 1 ≤ s.byteCount ∧
        (slotAt s.head s).length.val = 9) (reading 10 0xC1#8 nine) := by decide

theorem witness_MaskedTickRunsNothing : ({ idle with irqEnabled := false } : State).irqEnabled = false := by
  decide

/-- A StopBit error whose bit is already set. -/
theorem witness_ErrorResynchronisesInSameTick :
    (fun s : State => s.errFlags = 0x08#8 ∧
        (tick .low .edge .edge { s with errFlags := 0x00#8 }).errFlags ≠ 0x00#8)
      { reading 1 0xC1#8 (slotOf []) with errFlags := 0x08#8 } := by decide

theorem witness_ReceiverReadsTransmittedByte :
    (fun s : State => s.irqEnabled = true ∧ s.rxMode = .readData ∧ s.bitPos = 0 ∧ 1 ≤ s.byteCount ∧
        (slotAt s.head s).length.val = 0) { reading 1 0x00#8 (slotOf []) with bitPos := 0 } ∧
      (fun s : State => s.irqEnabled = true ∧ s.rxMode = .readData ∧ s.bitPos = 0 ∧ 1 ≤ s.byteCount ∧
        (slotAt s.head s).length.val = 8)
        { reading 9 0x00#8 (slotOf (List.replicate 8 0x11#8)) with bitPos := 0 } := by decide

theorem witness_TransmittedFrameIsReceivedWhole :
    (fun s : State => s.irqEnabled = true ∧ s.rxMode = .detectBreak ∧ s.lowCount = 0 ∧
        s.head + 1 ≠ s.tail) idle ∧
      (fun s : State => s.irqEnabled = true ∧ s.rxMode = .detectBreak ∧ s.lowCount = 0 ∧
        s.head + 1 = s.tail) { idle with head := 7 } ∧
      1 ≤ [0x00#8].length ∧ (List.replicate 8 0xFF#8).length ≤ 8 := by decide

theorem witness_HandOffDropsOldestOnCollision :
    idle.head + 1 ≠ idle.tail ∧
      (fun s : State => s.head + 1 = s.tail) { idle with head := 7 } := by decide

theorem witness_PopTakesOldestWaiting : idle.head = idle.tail ∧ busy.head ≠ busy.tail := by decide

theorem witness_RingKeepsSevenMostRecent :
    (fun s : State => s.head = s.tail) { idle with head := 7, tail := 7 } := by decide

theorem witness_TransmittedFramesAreValid :
    (List.replicate 7 0x11#8).length + ([] : List Byte).length ≤ 7 ∧
      0x00#8 ≠ 0xFE#8 ∧ ¬(0x00#8 = 0x00#8 ∧ 0xFE#8 = 0xFF#8) ∧ ¬(0x00#8 = 0xFF#8 ∧ 0xFE#8 = 0x00#8) := by
  decide

/-- isValid of a frame of each accepted shape. -/
theorem witness_IsValidIsStructureParityChecksum :
    isValid true [0xC1#8] = true ∧ isValid true [0x3C#8, 0x00#8, 0xC3#8] = true := by decide

theorem witness_OpenConnectsWithoutPayload :
    after (exec (.openSession []) open_) (·.connected) = some true ∧
      after (exec (.openSession [0x31#8]) idle) (·.connected) = some false := by decide

theorem witness_SelectBitrateRecordsDigit :
    open_.connected = true ∧ idle.connected = false ∧
      0x30#8 ∈ [0x30#8, 0x31#8, 0x32#8, 0x33#8, 0x34#8, 0x35#8, 0x36#8, 0x38#8] ∧
      0x38#8 ∈ [0x30#8, 0x31#8, 0x32#8, 0x33#8, 0x34#8, 0x35#8, 0x36#8, 0x38#8] ∧
      0x37#8 ∉ [0x30#8, 0x31#8, 0x32#8, 0x33#8, 0x34#8, 0x35#8, 0x36#8, 0x38#8] := by decide

theorem witness_CustomBitrateIsInert : open_.connected = true ∧ idle.connected = false := by decide

theorem witness_TimestampTakesDigit :
    0x32#8 ≠ 0x30#8 ∧ 0x32#8 ≠ 0x31#8 ∧ [0x30#8] ≠ ([] : List Byte) := by decide

theorem witness_CharReadsLineThenNulThenDraws : [0x31#8][0]? = some 0x31#8 := by decide

/-- A line whose length digit is 1 or 8 transmits, one whose length digit is 0 or 9 does not. -/
theorem witness_TransmitCommandOnAnyLine :
    open_.connected = true ∧
      [0x31#8, 0x38#8, 0x30#8, 0x39#8].map (fun d =>
        hexval (char ([0x30#8, 0x30#8, 0x31#8] ++ (some d).toList ++ [] ++ []) open_.draws 4)) =
        [1, 8, 0, 9] ∧
      hexval (char ([0x30#8, 0x30#8, 0x31#8] ++ (none : Option Byte).toList ++ [] ++ []) open_.draws 4) =
        0 := by decide

theorem witness_TransmitCommandSendsFrame :
    open_.connected = true ∧ open_.txPending = [] ∧ hexval 0x31#8 = [(0x41#8, 0x42#8)].length ∧
      hexval 0x38#8 = (List.replicate 8 (0x41#8, 0x42#8)).length := by decide

theorem witness_TransmitCommandIsSilentOnBadLength :
    idle.connected = false ∧ open_.connected = true ∧ hexval 0x30#8 = 0 ∧ hexval 0x47#8 = 0 ∧
      hexval 0x39#8 > 8 ∧ hexval 0x66#8 > 8 := by decide

/-- A command with a next state, and one that is none of the instructions each clause names. -/
theorem witness_CommandsWriteOnlyTheirFields :
    (∃ t, exec (.customBitrate []) busy = .next t) ∧
      (∀ a b c d, Instr.customBitrate [] ≠ .transmit a b c d) ∧
      (∀ p, Instr.customBitrate [] ≠ .openSession p) ∧
      (∀ p, Instr.customBitrate [] ≠ .closeSession p) ∧
      (∀ d p, Instr.customBitrate [] ≠ .selectBitrate d p) ∧
      ∀ d p, Instr.customBitrate [] ≠ .setTimestamp d p :=
  ⟨⟨_, rfl⟩, nofun, nofun, nofun, nofun, nofun⟩

theorem witness_SerialWritesFollowThePolicy :
    txTakes idle 5 ∧ txTakes { idle with txRoom := .free 5 } 5 ∧
      idle.txRoom = .ample ∧ idle.params.txFullPolicy = .block ∧
      (fun s : State => s.params.txFullPolicy = .block ∧ s.txRoom = .free 1 ∧ s.txPending.length = 2)
        { idle with txRoom := .free 1, txPending := [0x41#8, 0x42#8] } ∧
      (fun s : State => s.params.txFullPolicy = .drop ∧ s.txPending = [] ∧ s.txRoom = .free 2)
        { idle with txRoom := .free 2, params := { idle.params with txFullPolicy := .drop } } :=
  ⟨⟨rfl, trivial⟩, ⟨rfl, by decide⟩, rfl, by decide, by decide, by decide⟩

theorem witness_CharactersAccumulate :
    0x21#8 ≠ 0x00#8 ∧ 0x21#8 ≠ 0x0D#8 ∧ 0x21#8 ≠ 0x0A#8 ∧
      ({ idle with lineDiscard := true } : State).lineDiscard = true ∧
      (fun s : State => s.lineDiscard = false ∧ s.lineLen.val = 0 ∧ 0 + 1 < 26) idle ∧
      (fun s : State => s.lineDiscard = false ∧ s.lineLen.val = 24 ∧ 24 + 1 < 26)
        { idle with lineLen := 24 } ∧
      (fun s : State => s.lineDiscard = false ∧ s.lineLen.val = 25) { idle with lineLen := 25 } := by
  decide

/-- The state in which a line and its terminator stand ready, for a line of 25 characters; and a `t` line
that leaves its transmission to the next unit. -/
theorem witness_StepRunsDecodedLine :
    (fun s : State => s.boot = .running ∧ s.txPending = [] ∧ s.task = .choosing ∧ s.schedule = [.serveHost] ∧
        s.serialRx = [0x0D#8] ∧ s.lineDiscard = false ∧ s.lineLen ≠ 0 ∧
        decode (lineOf s) = .ok (.serialNumber (List.replicate 24 0x31#8)))
      (placeLine (0x4E#8 :: List.replicate 24 0x31#8) idle) ∧
      after (exec (.transmit [0x30#8, 0x30#8, 0x31#8] (some 0x31#8) [] []) open_)
        (fun t => decide (t.task ≠ .choosing)) = some true := by decide

theorem witness_StepTakesNextEvent :
    (fun s : State => s.boot = .running ∧ s.txPending = [] ∧ s.task = .choosing ∧ s.serialRx = [] ∧
        s.schedule = [.serveHost]) { idle with schedule := [.serveHost] } ∧
      (fun s : State => s.boot = .running ∧ s.txPending = [] ∧ s.task = .choosing ∧
        s.serialRx = [0x0D#8] ∧ s.schedule = [.serveHost]) { idle with serialRx := [0x0D#8], schedule := [.serveHost] } ∧
      (fun s : State => s.boot = .running ∧ s.txPending ≠ [] ∧ s.schedule = [.forward])
        { idle with txPending := [0x0D#8], txRoom := .free 0, schedule := [.forward] } ∧
      (fun s : State => s.boot = .running ∧ s.txPending = [] ∧ s.task = .transmitting 0x3F#8 [0x00#8] ∧
        s.schedule = [.proceed])
        { open_ with task := .transmitting 0x3F#8 [0x00#8], schedule := [.proceed] } ∧
      (fun s : State => s.boot = .running ∧ s.txPending = [] ∧ s.task = .replying ∧
        s.schedule = [.proceed]) { open_ with task := .replying, schedule := [.proceed] } ∧
      (fun s : State => s.boot = .running ∧ s.txPending = [] ∧ s.task = .forwarding [0xC1#8] ∧
        s.schedule = [.proceed])
        { open_ with task := .forwarding [0xC1#8], schedule := [.proceed] } ∧
      (fun s : State => s.boot = .running ∧ s.task = .choosing ∧ s.schedule = [.proceed])
        { open_ with schedule := [.proceed] } := by decide

theorem witness_EmptyLineDispatchesNothing :
    (fun s : State => s.lineDiscard = false ∧ s.lineLen = 0) idle ∧
      ({ idle with lineDiscard := true } : State).lineDiscard = true := by decide

theorem witness_EncodedFrameText :
    1 ≤ [0x3E#8].length ∧ (List.replicate 9 0x40#8).length ≤ 9 ∧
      9 < (List.replicate 10 0x40#8).length := by decide

/-- A valid frame waits; an invalid one waits; a frame waits while closed and forwarding needs a session. -/
theorem witness_ForwardOnePopsValidatesEncodes :
    idle.head = idle.tail ∧ waiting busy = [[0xC1#8]] ∧
      isValid busy.params.checksumIncludesId [0xC1#8] = true ∧
      busy.params.forwardRequiresConnected = false ∧
      waiting { busy with slots := busy.slots.set 0 (slotOf [0x01#8]) } = [[0x01#8]] ∧
      isValid busy.params.checksumIncludesId [0x01#8] = false ∧
      (fun s : State => s.connected = false ∧ s.params.forwardRequiresConnected = true)
        { busy with params := { busy.params with forwardRequiresConnected := true } } := by decide

theorem witness_BootRunsInOrder :
    State.reset.boot = .fieldsReset ∧ (bootStep State.reset).boot = .cfgComputed ∧
      (bootStep (bootStep State.reset)).boot = .txReleased ∧
      (bootStep (bootStep (bootStep State.reset))).boot = .timerStarted := by decide

theorem inv_busy : Inv busy where
  lowCount_detect := by decide
  lowCount_read := by decide
  bitPos_le := by decide
  byteCount_le := by decide
  frame_empty := by decide
  frame_counts := by decide
  centred := by decide
  waiting_length := by decide
  flags_reserved := by decide
  line_storable := by decide
  discard_enabled := by decide
  bitrate_known := by simp [busy]
  tx_high := by decide
  irq_open := by decide
  boot_idle := by decide
  task_sends := nofun
  task_frame := nofun
  task_line := by simp [busy, idle]
  task_idle := by decide
  task_free := by decide
  pending_blocked := by decide

/-- The invariant holds in the middle of a frame, and a step is taken there. -/
theorem witness_StepKeepsTheRanges : Inv busy ∧ ∃ t, step busy = .next t := ⟨inv_busy, _, rfl⟩

theorem witness_ConfigIsComputedOnceAtBoot :
    (State.reset.boot = .fieldsReset ∧ ∃ t, step State.reset = .next t) ∧
      busy.boot = .running ∧ ∃ t, step busy = .next t :=
  ⟨⟨rfl, _, rfl⟩, rfl, _, rfl⟩

theorem witness_OutputsOnlyGrow :
    ∃ t, step { busy with schedule := [.serveHost] } = .next t := ⟨_, rfl⟩

/-- A connected session's `t` line comes to its transmission, and that drives the bus. -/
theorem witness_OnlyTransmitCommandDrivesBus :
    after (step (placeLine [0x74#8, 0x30#8, 0x30#8, 0x31#8, 0x31#8, 0x30#8, 0x30#8] open_)) (·.task) =
        some (.transmitting 0x01#8 [0x00#8]) ∧
      after (step { open_ with task := .transmitting 0x01#8 [0x00#8], schedule := [.proceed] })
        (fun t => decide (t.txTrace ≠ open_.txTrace)) = some true := by decide

/-- A command, a host byte with a next state, in the middle of a frame. -/
theorem witness_TicksCommuteWithMainLoopUnits :
    (∃ t, exec (.closeSession []) busy = .next t) ∧ ∃ t, onHostByte 0x0D#8 busy = .next t :=
  ⟨⟨_, rfl⟩, _, rfl⟩

end Sys2Proof.Tests
end

section
/-! PROOF. What a unit of the main loop and a tick leave unchanged, said once for every field. -/

namespace Sys2Proof.Machine

/-! ## Units that write the main loop's own fields only (20_memory.md R74) -/

/-- The second state differs from the first in the main loop's own fields only. -/
def MainWrite (s t : State) : Prop := ∃ m, t = writeMain m s

theorem MainWrite.refl (s : State) : MainWrite s s := ⟨mainFields s, rfl⟩

theorem MainWrite.trans {s t u : State} (h : MainWrite s t) (h' : MainWrite t u) : MainWrite s u := by
  obtain ⟨_, rfl⟩ := h
  obtain ⟨m, rfl⟩ := h'
  exact ⟨m, rfl⟩

theorem mainWrite_emit (bytes : List Byte) (s : State) : MainWrite s (emit bytes s) :=
  ⟨mainFields (emit bytes s), rfl⟩

theorem mainWrite_txDrain (room : TxRoom) (s : State) :
    MainWrite s (txDrain { s with txRoom := room }) :=
  ⟨mainFields (txDrain { s with txRoom := room }), rfl⟩

theorem mainWrite_terminateLine (s : State) : MainWrite s (terminateLine s) :=
  ⟨mainFields (terminateLine s), rfl⟩

theorem mainWrite_resetLine (s : State) : MainWrite s (resetLine s) :=
  ⟨mainFields (resetLine s), rfl⟩

theorem mainWrite_endLine (s : State) : MainWrite s (endLine s) := by
  rcases endLine_cases s with ⟨_, h⟩ | ⟨_, h⟩ <;> rw [h]
  · exact mainWrite_resetLine s
  · exact .refl s

theorem mainWrite_replySent (s : State) : MainWrite s (replySent s) :=
  ⟨mainFields (replySent s), rfl⟩

theorem mainWrite_choosing (s : State) : MainWrite s { s with task := .choosing } :=
  ⟨mainFields { s with task := .choosing }, rfl⟩

theorem mainWrite_forwardFrame (f : List Byte) (s : State) : MainWrite s (forwardFrame f s) := by
  rcases forwardFrame_cases f s with h | h <;> rw [h]
  · exact mainWrite_choosing s
  · exact (mainWrite_choosing s).trans (mainWrite_emit _ _)

theorem mainWrite_onChar (c : Byte) (s : State) : MainWrite s (onChar c s) := by
  obtain ⟨_, _, _, h⟩ := onChar_touches c s
  exact ⟨mainFields (onChar c s), by rw [h]; rfl⟩

theorem mainWrite_exec {i : Instr} {s t : State} (h : exec i s = .next t) : MainWrite s t := by
  obtain ⟨_, _, _, _, _, _, _, u, hu, _, hexec⟩ := exec_cases i s
  have write : MainWrite s u := ⟨mainFields u, by rw [hu]; rfl⟩
  obtain ⟨_, bytes, h'⟩ | ⟨_, h'⟩ | ⟨_, _, _, _, _, _, _, _, h'⟩ := hexec <;> cases h.symm.trans h'
  · exact write.trans (mainWrite_emit bytes u)
  · exact write
  · exact write

theorem mainWrite_onTerminator {s t : State} (h : onTerminator s = .next t) : MainWrite s t := by
  obtain ⟨_, h'⟩ | ⟨_, _, h'⟩ | ⟨_, _, i, u, _, hu, h'⟩ := onTerminator_cases s <;>
    cases h.symm.trans h'
  · exact ⟨mainFields { s with lineDiscard := false, lineLen := 0 }, rfl⟩
  · exact .refl s
  · exact ((mainWrite_terminateLine s).trans (mainWrite_exec hu)).trans (mainWrite_endLine u)

theorem mainWrite_onHostByte {c : Byte} {s t : State} (h : onHostByte c s = .next t) :
    MainWrite s t := by
  obtain ⟨_, h'⟩ | ⟨_, h'⟩ | ⟨_, h'⟩ := onHostByte_cases c s
  · cases h.symm.trans h'
    exact .refl s
  · exact mainWrite_onTerminator (h'.symm.trans h)
  · cases h.symm.trans h'
    exact mainWrite_onChar c s

/-- Step (a) takes nothing, or one host byte out of the RX queue (45_host_forwarding.md R265). -/
theorem serveHost_cases (s : State) :
    serveHost s = .next s ∨
      ∃ c rest, s.serialRx = c :: rest ∧ serveHost s = onHostByte c { s with serialRx := rest } := by
  cases h : s.serialRx with
  | nil => exact .inl (by simp only [serveHost, h])
  | cons c rest => exact .inr ⟨c, rest, rfl, by simp only [serveHost, h]⟩

/-- The state after a step of R265: its unit ran where the main loop was free, or nothing happened. -/
theorem whenFree_next {s t : State} {unit : State → Host.Outcome State Fault Refusal}
    (h : whenFree s unit = .next t) :
    (s.txPending = [] ∧ s.task = .choosing ∧ unit s = .next t) ∨ t = s := by
  obtain ⟨hp, hc, h'⟩ | ⟨_, h'⟩ := whenFree_cases s unit
  · exact .inl ⟨hp, hc, h'.symm.trans h⟩
  · cases h.symm.trans h'
    exact .inr rfl

/-! ## What a tick leaves unchanged (60_exceptions.md R314) -/

/-- Everything HandOff can do (42_ringbuffer_errors.md R181). -/
theorem handOff_cases (s : State) :
    (s.head + 1 ≠ s.tail ∧ handOff s = { s with head := s.head + 1 }) ∨
      (s.head + 1 = s.tail ∧ handOff s =
        { raise .bufferOverrun s with head := s.head + 1, tail := s.tail + 1 }) := by
  by_cases h : s.head + 1 = s.tail
  · exact .inr ⟨h, by unfold handOff; exact if_pos h⟩
  · exact .inl ⟨h, by unfold handOff; exact if_neg h⟩

/-- A tick writes the Receiver's registers, the ring buffer and the error byte, and nothing else. -/
theorem tick_touches (l : Level) (w1 w2 : Wait) (s : State) :
    ∃ m low bytes bit a p slots head tail flags, tick l w1 w2 s =
      { s with
        rxMode := m, lowCount := low, byteCount := bytes, bitPos := bit, acc := a, timerPhase := p
        slots := slots, head := head, tail := tail, errFlags := flags } := by
  rcases takeInterrupt_cases (receiverTick l w1 w2) s with ⟨_, h⟩ | ⟨_, h⟩ <;> rw [tick, h]
  · obtain ⟨m, low, bytes, bit, a, p, f, u, rfl, h' | ⟨k, _, h'⟩ | ⟨_, h'⟩⟩ :=
      receiverTick_cases l w1 w2 s <;> rw [h']
    · exact ⟨_, _, _, _, _, _, _, _, _, _, rfl⟩
    · exact ⟨_, _, _, _, _, _, _, _, _, _, rfl⟩
    · rcases handOff_cases (receiverWrite m low bytes bit a p f s) with ⟨_, e⟩ | ⟨_, e⟩ <;> rw [e] <;>
        exact ⟨_, _, _, _, _, _, _, _, _, _, rfl⟩
  · exact ⟨_, _, _, _, _, _, _, _, _, _, rfl⟩

end Sys2Proof.Machine
end

section
/-! PROOF. O58: a step only appends to the outputs. -/

namespace Sys2Proof.Machine

/-- The outputs of the second state extend those of the first. -/
def OutputsExtend (s t : State) : Prop :=
  s.hostOut <+: t.hostOut ∧ s.txTrace <+: t.txTrace ∧ s.errOut <+: t.errOut

theorem OutputsExtend.of_eq {s t : State} (hh : t.hostOut = s.hostOut) (ht : t.txTrace = s.txTrace)
    (he : t.errOut = s.errOut) : OutputsExtend s t :=
  ⟨hh ▸ List.prefix_rfl, ht ▸ List.prefix_rfl, he ▸ List.prefix_rfl⟩

theorem OutputsExtend.refl (s : State) : OutputsExtend s s := .of_eq rfl rfl rfl

theorem OutputsExtend.trans {s t u : State} (h : OutputsExtend s t) (h' : OutputsExtend t u) :
    OutputsExtend s u :=
  ⟨h.1.trans h'.1, h.2.1.trans h'.2.1, h.2.2.trans h'.2.2⟩

theorem outputsExtend_txDrain (s : State) : OutputsExtend s (txDrain s) :=
  ⟨List.prefix_append _ _, List.prefix_rfl, List.prefix_rfl⟩

theorem outputsExtend_emit (bytes : List Byte) (s : State) : OutputsExtend s (emit bytes s) :=
  ⟨List.prefix_append _ _, List.prefix_rfl, List.prefix_rfl⟩

theorem outputsExtend_exec {i : Instr} {s t : State} (h : exec i s = .next t) : OutputsExtend s t := by
  obtain ⟨_, _, _, _, _, _, _, u, hu, _, hexec⟩ := exec_cases i s
  have write : OutputsExtend s u := .of_eq (by rw [hu]; rfl) (by rw [hu]; rfl) (by rw [hu]; rfl)
  obtain ⟨_, bytes, h'⟩ | ⟨_, h'⟩ | ⟨_, _, _, _, _, _, _, _, h'⟩ := hexec <;> cases h.symm.trans h'
  · exact write.trans (outputsExtend_emit bytes u)
  · exact write
  · exact write

theorem outputsExtend_endLine (s : State) : OutputsExtend s (endLine s) := by
  rcases endLine_cases s with ⟨_, h⟩ | ⟨_, h⟩ <;> rw [h] <;> exact .of_eq rfl rfl rfl

theorem outputsExtend_onTerminator {s t : State} (h : onTerminator s = .next t) :
    OutputsExtend s t := by
  obtain ⟨_, h'⟩ | ⟨_, _, h'⟩ | ⟨_, _, i, u, _, hu, h'⟩ := onTerminator_cases s <;>
    cases h.symm.trans h'
  · exact .of_eq rfl rfl rfl
  · exact .refl s
  · have terminated : OutputsExtend s (terminateLine s) := .of_eq rfl rfl rfl
    exact (terminated.trans (outputsExtend_exec hu)).trans (outputsExtend_endLine u)

theorem outputsExtend_onHostByte {c : Byte} {s t : State} (h : onHostByte c s = .next t) :
    OutputsExtend s t := by
  obtain ⟨_, h'⟩ | ⟨_, h'⟩ | ⟨_, h'⟩ := onHostByte_cases c s
  · cases h.symm.trans h'
    exact .refl s
  · exact outputsExtend_onTerminator (h'.symm.trans h)
  · cases h.symm.trans h'
    obtain ⟨_, _, _, hc⟩ := onChar_touches c s
    rw [hc]
    exact .of_eq rfl rfl rfl

theorem outputsExtend_serveHost {s t : State} (h : serveHost s = .next t) : OutputsExtend s t := by
  obtain h' | ⟨c, rest, _, h'⟩ := serveHost_cases s
  · cases h.symm.trans h'
    exact .refl s
  · have taken : OutputsExtend s { s with serialRx := rest } := .of_eq rfl rfl rfl
    exact taken.trans (outputsExtend_onHostByte (h'.symm.trans h))

theorem outputsExtend_sendFrame (addr : Byte) (data : List Byte) (s : State) :
    OutputsExtend s (sendFrame addr data s) := by
  obtain ⟨levels, h⟩ := transmitFrame_touches addr data s
  rw [sendFrame, h]
  exact ⟨List.prefix_rfl, List.prefix_append _ _, List.prefix_rfl⟩

theorem outputsExtend_forwardFrame (f : List Byte) (s : State) :
    OutputsExtend s (forwardFrame f s) := by
  have ended : OutputsExtend s { s with task := .choosing } := .of_eq rfl rfl rfl
  rcases forwardFrame_cases f s with h | h <;> rw [h]
  · exact ended
  · exact ended.trans (outputsExtend_emit _ _)

theorem outputsExtend_proceed (s : State) : OutputsExtend s (proceed s) := by
  obtain ⟨_, h⟩ | ⟨_, ⟨addr, data, _, h⟩ | ⟨_, h⟩ | ⟨f, _, h⟩⟩ := proceed_cases s <;> rw [h]
  · exact .refl s
  · exact outputsExtend_sendFrame addr data s
  · exact outputsExtend_emit [Ascii.cr] { s with task := .choosing }
  · exact outputsExtend_forwardFrame f s

theorem outputsExtend_tick (l : Level) (w1 w2 : Wait) (s : State) :
    OutputsExtend s (tick l w1 w2 s) := by
  obtain ⟨_, _, _, _, _, _, _, _, _, _, h⟩ := tick_touches l w1 w2 s
  rw [h]
  exact .of_eq rfl rfl rfl

theorem outputsExtend_takeFrame (s : State) : OutputsExtend s (takeFrame s) := by
  rcases takeFrame_cases s with ⟨_, h⟩ | ⟨_, h⟩ <;> rw [h] <;> exact .of_eq rfl rfl rfl

/-- The error byte read is appended to the record of log 9. -/
theorem outputsExtend_readErrors (s : State) : OutputsExtend s (readErrors s) :=
  ⟨List.prefix_rfl, List.prefix_rfl, List.prefix_append _ _⟩

theorem outputsExtend_runEvent {e : Event} {s t : State} (h : runEvent e s = .next t) :
    OutputsExtend s t := by
  cases e with
  | tick l w1 w2 => cases h; exact outputsExtend_tick l w1 w2 s
  | hostSends b => cases h; exact .of_eq rfl rfl rfl
  | txQueue room => cases h; exact outputsExtend_txDrain { s with txRoom := room }
  | serveHost =>
    obtain ⟨_, _, hu⟩ | rfl := whenFree_next h
    · exact outputsExtend_serveHost hu
    · exact .refl t
  | forward =>
    obtain ⟨_, _, hu⟩ | rfl := whenFree_next (unit := fun s => .next (takeFrame s)) h
    · cases hu; exact outputsExtend_takeFrame s
    · exact .refl t
  | readErrors =>
    obtain ⟨_, _, hu⟩ | rfl := whenFree_next (unit := fun s => .next (readErrors s)) h
    · cases hu; exact outputsExtend_readErrors s
    · exact .refl t
  | proceed => cases h; exact outputsExtend_proceed s

theorem outputsExtend_bootStep (s : State) : OutputsExtend s (bootStep s) := by
  unfold bootStep
  split <;> exact .of_eq rfl rfl rfl

/-- Settles O58: every boot step and every event extends the three histories. -/
theorem outputsOnlyGrow : Obligations.OutputsOnlyGrow := by
  intro s t h
  obtain ⟨_, h'⟩ | ⟨_, rest, k, e, u, rfl, h'⟩ := step_cases s
  · cases h.symm.trans h'
    exact outputsExtend_bootStep s
  · have drawn : OutputsExtend s { s with schedule := rest, draws := k } := .of_eq rfl rfl rfl
    exact drawn.trans (outputsExtend_runEvent (h'.symm.trans h))

end Sys2Proof.Machine
end

section
/-! PROOF. Which slots wait, and what the producer and the pop do to the frames that wait. -/

namespace Sys2Proof.Machine

/-! ## Which slots wait (42_ringbuffer_errors.md R180) -/

/-- A frame waits exactly if it stands in a slot from tail on and before head. -/
theorem mem_waiting {f : List Byte} {s : State} :
    f ∈ waiting s ↔ ∃ k : Fin 8, k - s.tail < s.head - s.tail ∧ slotFrame (slotAt k s) = f := by
  simp only [waiting, List.mem_map, List.mem_range, waitingCount]
  constructor
  · rintro ⟨j, hj, hf⟩
    have hj8 : j < 8 := hj.trans (s.head - s.tail).isLt
    refine ⟨s.tail + Fin.ofNat 8 j, ?_, hf⟩
    rw [add_sub_cancel_left, Fin.lt_def, Fin.val_ofNat, Nat.mod_eq_of_lt hj8]
    exact hj
  · rintro ⟨k, hk, hf⟩
    exact ⟨(k - s.tail).val, hk, by rw [Fin.ofNat_val_eq_self, add_sub_cancel, hf]⟩

/-- The slot in progress waits for no consumer: writing it leaves the waiting frames. -/
theorem waiting_setSlot_head (f : Slot) (s : State) : waiting (setSlot s.head f s) = waiting s := by
  refine List.map_congr_left fun j hj => ?_
  have hj : j < (s.head - s.tail).val := List.mem_range.mp hj
  have ne : s.tail + Fin.ofNat 8 j ≠ s.head := by
    intro e
    have hv : j % 8 = (s.head - s.tail).val := by rw [← e, add_sub_cancel_left, Fin.val_ofNat]
    omega
  rw [setSlot_tail, slotAt_setSlot_ne ne]

/-- HandOff adds no frame but the one in progress (42_ringbuffer_errors.md R181). -/
theorem mem_waiting_handOff {f : List Byte} {s : State} (h : f ∈ waiting (handOff s)) :
    f ∈ waiting s ∨ f = slotFrame (slotAt s.head s) := by
  obtain ⟨k, hk, rfl⟩ := mem_waiting.mp h
  have slot : slotAt k (handOff s) = slotAt k s := by
    rcases handOff_cases s with ⟨_, e⟩ | ⟨_, e⟩ <;> rw [e] <;> rfl
  have between : k - s.tail < s.head - s.tail ∨ k = s.head := by
    rcases handOff_cases s with ⟨_, e⟩ | ⟨_, e⟩ <;> rw [e] at hk <;> dsimp only at hk <;> omega
  rw [slot]
  rcases between with hk | rfl
  · exact .inl (mem_waiting.mpr ⟨k, hk, rfl⟩)
  · exact .inr rfl

/-- The frames that wait after the pop of ForwardOne waited before. -/
theorem mem_waiting_takeFrame {f : List Byte} {s : State} (h : f ∈ waiting (takeFrame s)) :
    f ∈ waiting s := by
  rcases takeFrame_cases s with ⟨_, e⟩ | ⟨ne, e⟩ <;> rw [e] at h
  · exact h
  · obtain ⟨k, hk, rfl⟩ := mem_waiting.mp h
    dsimp only at hk
    exact mem_waiting.mpr ⟨k, by omega, rfl⟩

/-- The frame at tail waits when the buffer is not empty. -/
theorem tail_mem_waiting {s : State} (h : s.head ≠ s.tail) :
    slotFrame (slotAt s.tail s) ∈ waiting s :=
  mem_waiting.mpr ⟨s.tail, by omega, rfl⟩

end Sys2Proof.Machine
end

section
/-! PROOF. The part of the invariant about the Receiver, the ring buffer and the error byte, and that every
tick keeps it. -/

namespace Sys2Proof.Machine

/-! ## What the Receiver needs in either mode -/

/-- The ranges that hold in either mode, and those of the ring buffer and the error byte. -/
structure RxBounds (s : State) : Prop where
  bitPos_le : s.bitPos ≤ 9
  byteCount_le : s.byteCount ≤ 11
  waiting_length : ∀ f ∈ waiting s, 1 ≤ f.length ∧ f.length ≤ 10
  flags_reserved : s.errFlags &&& 0xC0#8 = 0x00#8

/-- A kind that a rule raises has its bit among the lower six (10_state.md R32). -/
theorem errMask_reserved {k : RxError} (h : k ≠ .other) : errMask k &&& 0xC0#8 = 0x00#8 := by
  cases k with
  | other => exact absurd rfl h
  | _ => decide

theorem flags_reserved_or_errMask {flags : Byte} {k : RxError} (h : flags &&& 0xC0#8 = 0x00#8)
    (hk : k ≠ .other) : (flags ||| errMask k) &&& 0xC0#8 = 0x00#8 := by
  rw [BitVec.and_or_distrib_right, h, errMask_reserved hk, BitVec.or_zero]

theorem RxBounds.raise {s : State} (h : RxBounds s) {k : RxError} (hk : k ≠ .other) :
    RxBounds (raise k s) :=
  { h with flags_reserved := flags_reserved_or_errMask h.flags_reserved hk }

/-- Handing off a frame of at least one byte keeps the waiting frames' lengths (40_receiver.md R134). -/
theorem RxBounds.handOff {s : State} (h : RxBounds s) (hf : 1 ≤ (slotAt s.head s).length.val) :
    RxBounds (handOff s) := by
  have lengths : ∀ f ∈ waiting (Machine.handOff s), 1 ≤ f.length ∧ f.length ≤ 10 := by
    intro f hmem
    rcases mem_waiting_handOff hmem with hmem | rfl
    · exact h.waiting_length f hmem
    · rw [slotFrame_length]
      omega
  rcases handOff_cases s with ⟨_, e⟩ | ⟨_, e⟩ <;> rw [e] at lengths ⊢
  · exact { h with waiting_length := lengths }
  · exact { h.raise (k := .bufferOverrun) nofun with waiting_length := lengths }

/-- Writing the slot in progress leaves what the bounds speak of. -/
theorem RxBounds.setSlot_head {s : State} (h : RxBounds s) (f : Slot) :
    RxBounds (setSlot s.head f s) :=
  { h with waiting_length := by rw [waiting_setSlot_head]; exact h.waiting_length }

/-- The next byte starts at bit position 0 (40_receiver.md R124, R128, R129). -/
theorem RxBounds.startByte {s : State} (h : RxBounds s) (m : RxMode) {n : Nat} (hn : n ≤ 11) :
    RxBounds { s with rxMode := m, byteCount := n, bitPos := 0 } :=
  { h with bitPos_le := Nat.zero_le 9, byteCount_le := hn }

/-! ## What the Receiver needs in its mode -/

/-- The Receiver's part of the invariant: the bounds and what the mode says of the counters, the frame in
progress and the timer. -/
structure RxInv (s : State) : Prop extends RxBounds s where
  lowCount_detect : s.rxMode = .detectBreak → s.lowCount < breakLowSamples
  lowCount_read : s.rxMode = .readData → s.lowCount = breakLowSamples
  frame_empty : s.rxMode = .readData → s.byteCount = 0 → (slotAt s.head s).length.val = 0
  frame_counts : s.rxMode = .readData → 1 ≤ s.byteCount →
    (slotAt s.head s).length.val + 1 = s.byteCount ∧ (slotAt s.head s).length.val ≤ 9
  centred : s.rxMode = .readData → s.timerPhase = .centred

theorem Inv.rxInv {s : State} (h : Inv s) : RxInv s := { h with }

/-- While a break is looked for, the mode asks for fewer than ten low samples only. -/
theorem RxBounds.rxInv_of_detectBreak {s : State} (h : RxBounds s) (hm : s.rxMode = .detectBreak)
    (hl : s.lowCount < breakLowSamples) : RxInv s :=
  { h with
    lowCount_detect := fun _ => hl
    lowCount_read := by simp [hm]
    frame_empty := by simp [hm]
    frame_counts := by simp [hm]
    centred := by simp [hm] }

theorem RxBounds.enterDetectBreak {s : State} (h : RxBounds s) : RxInv (enterDetectBreak s) :=
  RxBounds.rxInv_of_detectBreak { h with } rfl (show 0 < breakLowSamples by decide)

/-! ## The invocation, part by part (40_receiver.md R122 to R132) -/

/-- `enter(ReadData)` empties the slot in progress; the timer is centred, or the break is lost
(40_receiver.md R124). -/
theorem RxBounds.enterReadData {s : State} (h : RxBounds s) (hl : s.lowCount = breakLowSamples)
    (w : Wait) : RxInv (enterReadData w s) := by
  have entered : RxBounds (setSlot s.head { slotAt s.head s with length := 0 }
      { s with rxMode := .readData, byteCount := 0, bitPos := 0 }) :=
    (h.startByte .readData (Nat.zero_le 11)).setSlot_head _
  cases w with
  | timeout => exact entered.enterDetectBreak
  | edge =>
    exact
      { entered with
        lowCount_detect := nofun
        lowCount_read := fun _ => hl
        frame_empty := fun _ _ => congrArg (fun f => f.length.val) (slotAt_setSlot_self ..)
        frame_counts := fun _ h1 => absurd h1 (Nat.not_succ_le_zero 0)
        centred := fun _ => rfl }

theorem RxInv.detectBreakTick {s : State} (h : RxInv s) (hm : s.rxMode = .detectBreak) (l : Level)
    (w1 w2 : Wait) : RxInv (detectBreakTick l w1 w2 s) := by
  have bounds : ∀ n, RxBounds { s with lowCount := n } := fun n => { h with }
  cases l with
  | high => exact (bounds 0).rxInv_of_detectBreak hm (show 0 < breakLowSamples by decide)
  | low =>
    simp only [Machine.detectBreakTick]
    split
    case isTrue ht =>
      cases w1 with
      | edge => exact (bounds _).enterReadData ht w2
      | timeout => exact (bounds _).enterDetectBreak
    case isFalse hf =>
      exact (bounds _).rxInv_of_detectBreak hm
        (Nat.lt_of_le_of_ne (h.lowCount_detect hm) hf)

/-- After a byte of a frame the wait for the next one ends the frame, refuses an eleventh byte, or goes on
with room for one more (40_receiver.md R130 to R132). -/
theorem RxBounds.interByteWait {s : State} (h : RxBounds s) (hl : s.lowCount = breakLowSamples)
    (hm : s.rxMode = .readData) (hc : (slotAt s.head s).length.val + 1 = s.byteCount) (w : Wait) :
    RxInv (interByteWait w s) := by
  have lt := (slotAt s.head s).length.isLt
  cases w with
  | timeout =>
    simp only [Machine.interByteWait, frameEnd]
    split
    case isTrue => exact (h.raise (k := .frameTooShort) nofun).enterDetectBreak
    case isFalse hf => exact (h.handOff (by omega)).enterDetectBreak
  | edge =>
    simp only [Machine.interByteWait, nextByte]
    split
    case isTrue => exact (h.raise (k := .frameTooLong) nofun).enterDetectBreak
    case isFalse hf =>
      exact
        { h with
          lowCount_detect := by simp [hm]
          lowCount_read := fun _ => hl
          frame_empty := fun _ h0 => by simp only [timerRephase_byteCount] at h0; omega
          frame_counts := fun _ _ => ⟨hc, by
            change (slotAt s.head s).length.val ≤ 9
            simp only [frameCapacity] at hf
            omega⟩
          centred := fun _ => rfl }

/-- The accumulator is free and the bit position may move within its range (10_state.md R26). -/
theorem RxInv.moveBit {s : State} (h : RxInv s) (a : Byte) {n : Nat} (hn : n ≤ 9) :
    RxInv { s with acc := a, bitPos := n } :=
  { h with bitPos_le := hn }

theorem RxInv.startBitTick {s : State} (h : RxInv s) (l : Level) : RxInv (startBitTick l s) := by
  cases l with
  | low => exact h.moveBit s.acc (by decide)
  | high => exact (h.toRxBounds.raise (by split <;> nofun)).enterDetectBreak

theorem RxInv.syncByteDone {s : State} (h : RxInv s) (hm : s.rxMode = .readData)
    (h0 : s.byteCount = 0) (w : Wait) : RxInv (syncByteDone w s) := by
  unfold Machine.syncByteDone
  split
  case isTrue => exact (h.toRxBounds.raise (k := .syncByte) nofun).enterDetectBreak
  case isFalse =>
    exact (h.toRxBounds.startByte s.rxMode (n := 1) (by decide)).interByteWait (h.lowCount_read hm) hm
      (congrArg (· + 1) (h.frame_empty hm h0)) w

theorem RxInv.frameByteDone {s : State} (h : RxInv s) (hm : s.rxMode = .readData)
    (h0 : s.byteCount ≠ 0) (w : Wait) : RxInv (frameByteDone w s) := by
  obtain ⟨count, room⟩ := h.frame_counts hm (Nat.one_le_iff_ne_zero.mpr h0)
  have stored : RxBounds (setSlot s.head (slotAppend s.acc (slotAt s.head s))
      { s with byteCount := s.byteCount + 1, bitPos := 0 }) :=
    (h.toRxBounds.startByte s.rxMode (by omega)).setSlot_head _
  refine stored.interByteWait (h.lowCount_read hm) hm ?_ w
  rw [setSlot_head, slotAt_setSlot_self, slotAppend_length s.acc (by omega), count]
  rfl

theorem RxInv.stopBitTick {s : State} (h : RxInv s) (hm : s.rxMode = .readData) (l : Level)
    (w : Wait) : RxInv (stopBitTick l w s) := by
  cases l with
  | low => exact (h.toRxBounds.raise (by split <;> nofun)).enterDetectBreak
  | high =>
    simp only [Machine.stopBitTick]
    split
    case isTrue h0 => exact h.syncByteDone hm h0 w
    case isFalse h0 => exact h.frameByteDone hm h0 w

theorem RxInv.readDataTick {s : State} (h : RxInv s) (hm : s.rxMode = .readData) (l : Level)
    (w : Wait) : RxInv (readDataTick l w s) := by
  unfold Machine.readDataTick
  split
  case isTrue => exact h.startBitTick l
  case isFalse =>
    split
    case isTrue h8 => exact h.moveBit _ (by omega)
    case isFalse => exact h.stopBitTick hm l w

/-- Every tick keeps the Receiver's part of the invariant, taken or masked. -/
theorem RxInv.tick {s : State} (h : RxInv s) (l : Level) (w1 w2 : Wait) : RxInv (tick l w1 w2 s) := by
  rcases takeInterrupt_cases (receiverTick l w1 w2) s with ⟨_, e⟩ | ⟨_, e⟩ <;> rw [Machine.tick, e]
  · cases hm : s.rxMode with
    | detectBreak => simpa only [receiverTick, hm] using h.detectBreakTick hm l w1 w2
    | readData => simpa only [receiverTick, hm] using h.readDataTick hm l w1
  · exact h

/-! ## The main loop's access to the ring buffer and the error byte -/

theorem RxInv.mainWrite {s t : State} (h : RxInv s) (ht : MainWrite s t) : RxInv t := by
  obtain ⟨m, rfl⟩ := ht
  exact { h with }

theorem RxInv.sendFrame {s : State} (h : RxInv s) (addr : Byte) (data : List Byte) :
    RxInv (sendFrame addr data s) := by
  obtain ⟨_, e⟩ := transmitFrame_touches addr data s
  rw [Machine.sendFrame, e]
  exact { h with }

theorem RxInv.takeFrame {s : State} (h : RxInv s) : RxInv (takeFrame s) := by
  have lengths : ∀ f ∈ waiting (Machine.takeFrame s), 1 ≤ f.length ∧ f.length ≤ 10 :=
    fun f hf => h.waiting_length f (mem_waiting_takeFrame hf)
  rcases takeFrame_cases s with ⟨_, e⟩ | ⟨_, e⟩ <;> rw [e] at lengths ⊢ <;>
    exact { h with waiting_length := lengths }

theorem RxInv.readErrors {s : State} (h : RxInv s) : RxInv (readErrors s) :=
  { h with flags_reserved := BitVec.zero_and }

end Sys2Proof.Machine
end

section
/-! PROOF. The part of the invariant about the line, the session, the main loop's place and the serial
output, and that every event keeps it; then O56. -/

namespace Sys2Proof.Machine

/-- The main loop's part of the invariant: what it says of the main loop's own fields. -/
structure MainInv (s : State) : Prop where
  line_storable : ∀ c ∈ lineOf s, storable c = true
  discard_enabled : s.lineDiscard = true → s.params.overflowDiscardsRest = true ∧ s.lineLen = 0
  bitrate_known : ∀ d, s.bitrateSel = some d → d ≤ 8 ∧ d ≠ 7
  task_sends : ∀ addr data, s.task = .transmitting addr data →
    s.connected = true ∧ 1 ≤ data.length ∧ data.length ≤ 8
  task_frame : ∀ f, s.task = .forwarding f → 1 ≤ f.length ∧ f.length ≤ 10
  task_line : (s.task = .replying ∨ ∃ addr data, s.task = .transmitting addr data) →
    ∃ a b c d, decode (lineOf s) = .ok (.transmit a b c d)
  task_free : s.txPending ≠ [] → s.task = .choosing
  pending_blocked : s.txPending ≠ [] → s.params.txFullPolicy = .block ∧ s.txRoom = .free 0

theorem Inv.mainInv {s : State} (h : Inv s) : MainInv s := { h with }

/-! ## The serial output -/

/-- A main loop between two iterations owes nothing to the unit it was in. -/
theorem MainInv.choosing {s : State} (h : MainInv s) : MainInv { s with task := .choosing } :=
  { h with
    task_sends := nofun
    task_frame := nofun
    task_line := by simp
    task_free := fun _ => rfl }

/-- What still waits after a drain waits under `block` and for a full queue (60_exceptions.md R305). -/
theorem txDrain_pending_blocked (s : State) (h : (txDrain s).txPending ≠ []) :
    (txDrain s).params.txFullPolicy = .block ∧ (txDrain s).txRoom = .free 0 :=
  txAccept_waits _ _ _ h

theorem MainInv.emit {s : State} (h : MainInv s) (hc : s.task = .choosing) (bytes : List Byte) :
    MainInv (emit bytes s) :=
  { h with
    task_free := fun _ => hc
    pending_blocked := txDrain_pending_blocked { s with txPending := s.txPending ++ bytes } }

/-- Nothing waits after a drain of nothing. -/
theorem txDrain_txPending_nil {s : State} (h : s.txPending = []) : (txDrain s).txPending = [] := by
  simp only [txDrain, h]
  cases s.txRoom with
  | ample => rfl
  | free n => cases s.params.txFullPolicy <;> simp [txAccept]

theorem MainInv.txQueue {s : State} (h : MainInv s) (room : TxRoom) :
    MainInv (txDrain { s with txRoom := room }) :=
  { h with
    task_free := fun hp => h.task_free fun e =>
      hp (txDrain_txPending_nil (s := { s with txRoom := room }) e)
    pending_blocked := txDrain_pending_blocked { s with txRoom := room } }

/-! ## The line -/

theorem MainInv.terminateLine {s : State} (h : MainInv s) : MainInv (terminateLine s) :=
  { h with
    line_storable := by rw [lineOf_terminateLine]; exact h.line_storable
    task_line := by rw [lineOf_terminateLine]; exact h.task_line }

theorem MainInv.resetLine {s : State} (h : MainInv s) (hc : s.task = .choosing) :
    MainInv (resetLine s) :=
  { h with
    line_storable := by rw [lineOf_resetLine]; exact fun _ hm => absurd hm List.not_mem_nil
    discard_enabled := fun hd => ⟨(h.discard_enabled hd).1, rfl⟩
    task_line := by simp [hc] }

theorem MainInv.endLine {s : State} (h : MainInv s) : MainInv (endLine s) := by
  rcases endLine_cases s with ⟨hc, e⟩ | ⟨_, e⟩ <;> rw [e]
  · exact h.resetLine hc
  · exact h

/-- A stored character goes to the end of the line (44_command_protocol.md R222). -/
theorem lineOf_append (c : Byte) (s : State) (n : Fin 26) (hn : n.val = s.lineLen.val + 1) :
    lineOf { s with lineBuf := s.lineBuf.set s.lineLen.val c, lineLen := n } = lineOf s ++ [c] := by
  have hl := s.lineLen.isLt
  simp [lineOf, hn, Vector.toList_set, List.set_eq_take_append_cons_drop, hl, List.take_append,
    List.take_take]

/-- Everything a character can do: nothing, or it is stored, or it is the 26th and resets the line
(44_command_protocol.md R222). -/
theorem onChar_line (c : Byte) (s : State) :
    onChar c s = s ∨
      (s.lineDiscard = false ∧ ∃ n : Fin 26, n.val = s.lineLen.val + 1 ∧
        onChar c s = { s with lineBuf := s.lineBuf.set s.lineLen.val c, lineLen := n }) ∨
      onChar c s = { s with
        lineBuf := s.lineBuf.set s.lineLen.val c, lineLen := 0
        lineDiscard := s.params.overflowDiscardsRest } := by
  cases hd : s.lineDiscard with
  | true => exact .inl (by simp only [onChar, hd, if_true])
  | false =>
    by_cases hl : s.lineLen.val + 1 < lineCapacity
    · exact .inr (.inl ⟨rfl, ⟨s.lineLen.val + 1, hl⟩, rfl, by simp [onChar, hd, hl]⟩)
    · exact .inr (.inr (by simp [onChar, hd, hl]))

theorem MainInv.onChar {s : State} (h : MainInv s) (hc : s.task = .choosing) {c : Byte}
    (hs : storable c = true) : MainInv (onChar c s) := by
  obtain e | ⟨hd, n, hn, e⟩ | e := onChar_line c s <;> rw [e]
  · exact h
  · exact
      { h with
        line_storable := by
          rw [lineOf_append c s n hn]
          exact List.forall_mem_append.mpr ⟨h.line_storable, List.forall_mem_singleton.mpr hs⟩
        discard_enabled := by simp [hd]
        task_line := by simp [hc] }
  · exact
      { h with
        line_storable := by simp [lineOf]
        discard_enabled := fun hd => ⟨hd, rfl⟩
        task_line := by simp [hc] }

/-! ## A command, a host byte -/

/-- A command that the main loop runs between two iterations, with no write waiting
(44_command_protocol.md R225 to R235). -/
theorem MainInv.exec {i : Instr} {s t : State} (h : MainInv s) (hc : s.task = .choosing)
    (hp : s.txPending = []) (hi : decode (lineOf s) = .ok i) (ht : exec i s = .next t) :
    MainInv t := by
  obtain ⟨conn, id, dlc, ts, br, used, task, u, rfl, hbr, hexec⟩ := exec_cases i s
  have known : ∀ d, br = some d → d ≤ 8 ∧ d ≠ 7 := fun d hd =>
    (hbr d hd).elim (h.bitrate_known d) (fun known => known)
  have stays : task = s.task → MainInv (commandWrite conn id dlc ts br used task s) := by
    rintro rfl
    exact
      { h with
        bitrate_known := known
        task_sends := by simp [hc]
        task_line := by simp [hc] }
  obtain ⟨ht', bytes, e⟩ | ⟨ht', e⟩ | ⟨addr, data, rfl, _, rfl, ⟨a, b, c, d, rfl⟩, h1, h8, e⟩ := hexec <;>
    cases ht.symm.trans e
  · exact (stays ht').emit (ht'.trans hc) bytes
  · exact stays ht'
  · exact
      { h with
        bitrate_known := known
        task_sends := by rintro _ _ ⟨⟩; exact ⟨rfl, h1, h8⟩
        task_frame := nofun
        task_line := fun _ => ⟨a, b, c, d, hi⟩
        task_free := fun hp' => absurd hp hp' }

theorem MainInv.onTerminator {s t : State} (h : MainInv s) (hc : s.task = .choosing)
    (hp : s.txPending = []) (ht : onTerminator s = .next t) : MainInv t := by
  obtain ⟨_, e⟩ | ⟨_, _, e⟩ | ⟨_, _, i, u, hi, hu, e⟩ := onTerminator_cases s <;> cases ht.symm.trans e
  · exact
      { h with
        line_storable := by simp [lineOf]
        discard_enabled := nofun
        task_line := by simp [hc] }
  · exact h
  · exact (h.terminateLine.exec hc hp (by rw [lineOf_terminateLine]; exact hi) hu).endLine

theorem MainInv.onHostByte {c : Byte} {s t : State} (h : MainInv s) (hc : s.task = .choosing)
    (hp : s.txPending = []) (ht : onHostByte c s = .next t) : MainInv t := by
  obtain ⟨_, e⟩ | ⟨_, e⟩ | ⟨hs, e⟩ := onHostByte_cases c s
  · cases ht.symm.trans e
    exact h
  · exact h.onTerminator hc hp (e.symm.trans ht)
  · cases ht.symm.trans e
    exact h.onChar hc hs

/-! ## The next unit of a step (20_memory.md R69) -/

theorem MainInv.sendFrame {s : State} (h : MainInv s) (hp : s.txPending = []) {addr : Byte}
    {data : List Byte} (ht : s.task = .transmitting addr data) : MainInv (sendFrame addr data s) := by
  obtain ⟨_, e⟩ := transmitFrame_touches addr data s
  rw [Machine.sendFrame, e]
  exact
    { h with
      task_sends := nofun
      task_frame := nofun
      task_line := fun _ => h.task_line (.inr ⟨addr, data, ht⟩)
      task_free := fun hp' => absurd hp hp' }

theorem MainInv.forwardFrame {s : State} (h : MainInv s) (f : List Byte) :
    MainInv (forwardFrame f s) := by
  rcases forwardFrame_cases f s with e | e <;> rw [e]
  · exact h.choosing
  · exact h.choosing.emit rfl _

theorem MainInv.proceed {s : State} (h : MainInv s) : MainInv (proceed s) := by
  obtain ⟨_, e⟩ | ⟨hp, ⟨addr, data, ht, e⟩ | ⟨_, e⟩ | ⟨f, _, e⟩⟩ := proceed_cases s <;> rw [e]
  · exact h
  · exact h.sendFrame hp ht
  · exact (h.choosing.emit rfl [Ascii.cr]).resetLine rfl
  · exact h.forwardFrame f

/-- The frame that the pop takes waited, so it has 1 to 10 bytes (45_host_forwarding.md R263). -/
theorem MainInv.takeFrame {s : State} (h : MainInv s) (hr : RxInv s) (hp : s.txPending = []) :
    MainInv (takeFrame s) := by
  rcases takeFrame_cases s with ⟨_, e⟩ | ⟨ne, e⟩ <;> rw [e]
  · exact { h with }
  · exact
      { h with
        task_sends := nofun
        task_frame := by rintro _ ⟨⟩; exact hr.waiting_length _ (tail_mem_waiting ne)
        task_line := by simp
        task_free := fun hp' => absurd hp hp' }

/-! ## A running block -/

/-- The invariant of a block that runs, part by part (70_reset_and_hazards.md R342). -/
structure RunInv (s : State) : Prop where
  running : s.boot = .running
  irq_open : s.irqEnabled = true
  tx_high : s.txLevel = .high
  rx : RxInv s
  main : MainInv s

theorem Inv.runInv {s : State} (h : Inv s) (hb : s.boot = .running) : RunInv s :=
  ⟨hb, by rw [h.irq_open, hb]; rfl, h.tx_high, h.rxInv, h.mainInv⟩

theorem RunInv.inv {s : State} (h : RunInv s) : Inv s :=
  { h.rx, h.main with
    tx_high := h.tx_high
    irq_open := by rw [h.irq_open, h.running]; rfl
    boot_idle := fun hb => absurd h.running hb
    task_idle := fun hb => absurd h.running hb }

/-- A write of the main loop's own fields keeps the invariant if it keeps the main loop's part. -/
theorem RunInv.mainWrite {s t : State} (h : RunInv s) (hw : MainWrite s t) (hm : MainInv t) :
    RunInv t := by
  have rx := h.rx.mainWrite hw
  obtain ⟨m, rfl⟩ := hw
  exact { h with rx := rx, main := hm }

theorem RunInv.tick {s : State} (h : RunInv s) (l : Level) (w1 w2 : Wait) :
    RunInv (tick l w1 w2 s) := by
  have rx := h.rx.tick l w1 w2
  obtain ⟨_, _, _, _, _, _, _, _, _, _, e⟩ := tick_touches l w1 w2 s
  rw [e] at rx ⊢
  exact { h with rx := rx, main := { h.main with } }

theorem RunInv.serveHost {s t : State} (h : RunInv s) (hc : s.task = .choosing)
    (hp : s.txPending = []) (ht : serveHost s = .next t) : RunInv t := by
  obtain e | ⟨c, rest, _, e⟩ := serveHost_cases s
  · cases ht.symm.trans e
    exact h
  · have taken : RunInv { s with serialRx := rest } :=
      { h with rx := { h.rx with }, main := { h.main with } }
    have ht := e.symm.trans ht
    exact taken.mainWrite (mainWrite_onHostByte ht) (taken.main.onHostByte hc hp ht)

theorem RunInv.takeFrame {s : State} (h : RunInv s) (hp : s.txPending = []) :
    RunInv (takeFrame s) := by
  have rx := h.rx.takeFrame
  have main := h.main.takeFrame h.rx hp
  rcases takeFrame_cases s with ⟨_, e⟩ | ⟨_, e⟩ <;> rw [e] at rx main ⊢ <;>
    exact { h with irq_open := rfl, rx := rx, main := main }

theorem RunInv.readErrors {s : State} (h : RunInv s) : RunInv (readErrors s) :=
  { h with irq_open := rfl, rx := h.rx.readErrors, main := { h.main with } }

theorem RunInv.sendFrame {s : State} (h : RunInv s) (hp : s.txPending = []) {addr : Byte}
    {data : List Byte} (ht : s.task = .transmitting addr data) : RunInv (sendFrame addr data s) := by
  have rx := h.rx.sendFrame addr data
  have main := h.main.sendFrame hp ht
  obtain ⟨_, e⟩ := transmitFrame_touches addr data s
  rw [Machine.sendFrame, e] at rx main ⊢
  exact { h with irq_open := rfl, tx_high := rfl, rx := rx, main := main }

theorem RunInv.proceed {s : State} (h : RunInv s) : RunInv (proceed s) := by
  obtain ⟨_, e⟩ | ⟨hp, ⟨addr, data, ht, e⟩ | ⟨_, e⟩ | ⟨f, _, e⟩⟩ := proceed_cases s <;>
    have main := h.main.proceed <;> rw [e] at main ⊢
  · exact h
  · exact h.sendFrame hp ht
  · exact h.mainWrite ((mainWrite_replySent s).trans (mainWrite_resetLine _)) main
  · exact h.mainWrite (mainWrite_forwardFrame f s) main

theorem RunInv.runEvent {e : Event} {s t : State} (h : RunInv s) (ht : runEvent e s = .next t) :
    RunInv t := by
  cases e with
  | tick l w1 w2 => cases ht; exact h.tick l w1 w2
  | hostSends b => cases ht; exact { h with rx := { h.rx with }, main := { h.main with } }
  | txQueue room => cases ht; exact h.mainWrite (mainWrite_txDrain room s) (h.main.txQueue room)
  | serveHost =>
    obtain ⟨hp, hc, hu⟩ | rfl := whenFree_next ht
    · exact h.serveHost hc hp hu
    · exact h
  | forward =>
    obtain ⟨hp, _, hu⟩ | rfl := whenFree_next (unit := fun s => .next (Machine.takeFrame s)) ht
    · cases hu; exact h.takeFrame hp
    · exact h
  | readErrors =>
    obtain ⟨_, _, hu⟩ | rfl := whenFree_next (unit := fun s => .next (Machine.readErrors s)) ht
    · cases hu; exact h.readErrors
    · exact h
  | proceed => cases ht; exact h.proceed

/-! ## Boot -/

/-- A boot step keeps the invariant: the Receiver looks for a break and the main loop is in no step
(70_reset_and_hazards.md R342). -/
theorem Inv.bootStep {s : State} (h : Inv s) (hb : s.boot ≠ .running) : Inv (bootStep s) := by
  have idle := h.boot_idle hb
  have choosing := h.task_idle hb
  have masked : s.irqEnabled = false := by rw [h.irq_open]; exact decide_eq_false hb
  cases e : s.boot with
  | fieldsReset =>
    rw [Machine.bootStep, e]
    exact
      { h with
        irq_open := masked
        boot_idle := fun _ => idle
        task_idle := fun _ => choosing }
  | cfgComputed =>
    rw [Machine.bootStep, e]
    exact
      { h with
        tx_high := rfl
        irq_open := masked
        boot_idle := fun _ => idle
        task_idle := fun _ => choosing }
  | txReleased =>
    rw [Machine.bootStep, e]
    exact
      { h with
        irq_open := masked
        centred := by simp [idle]
        boot_idle := fun _ => idle
        task_idle := fun _ => choosing }
  | timerStarted =>
    rw [Machine.bootStep, e]
    exact
      { h with
        irq_open := rfl
        boot_idle := fun _ => idle
        task_idle := fun _ => choosing }
  | running => exact absurd e hb

/-- Settles O56: a boot step keeps the invariant, and so does every event of a running block. -/
theorem stepKeepsTheRanges : Obligations.StepKeepsTheRanges := by
  intro s t h ht
  obtain ⟨hb, e⟩ | ⟨hb, rest, k, e, u, rfl, e'⟩ := step_cases s
  · cases ht.symm.trans e
    exact h.bootStep hb
  · have drawn : RunInv { s with schedule := rest, draws := k } :=
      { h.runInv hb with rx := { h.rxInv with }, main := { h.mainInv with } }
    exact (drawn.runEvent (e'.symm.trans ht)).inv

end Sys2Proof.Machine
end

section
/-! PROOF. O60: a tick commutes with every unit of kind (d), because neither reads what the other writes. -/

namespace Sys2Proof.Machine

/-! ## The fields a tick writes (60_exceptions.md R314) -/

/-- The fields a tick writes: the Receiver's registers, the ring buffer, the error byte. -/
structure TickFields where
  rxMode : RxMode
  lowCount : Nat
  byteCount : Nat
  bitPos : Nat
  acc : Byte
  timerPhase : TimerPhase
  slots : Vector Slot 8
  head : Fin 8
  tail : Fin 8
  errFlags : Byte

/-- The fields a tick writes at new values, all else as in s. -/
def writeTick (r : TickFields) (s : State) : State :=
  { s with
    rxMode := r.rxMode, lowCount := r.lowCount, byteCount := r.byteCount, bitPos := r.bitPos
    acc := r.acc, timerPhase := r.timerPhase, slots := r.slots, head := r.head, tail := r.tail
    errFlags := r.errFlags }

theorem tick_eq_writeTick (l : Level) (w1 w2 : Wait) (s : State) :
    ∃ r, tick l w1 w2 s = writeTick r s := by
  obtain ⟨m, low, bytes, bit, a, p, slots, head, tail, flags, h⟩ := tick_touches l w1 w2 s
  exact ⟨⟨m, low, bytes, bit, a, p, slots, head, tail, flags⟩, h⟩

theorem writeMain_writeTick (m : MainFields) (r : TickFields) (s : State) :
    writeMain m (writeTick r s) = writeTick r (writeMain m s) := rfl

/-- The outcome with its next state changed by f. -/
def mapNext (f : State → State) :
    Host.Outcome State Fault Refusal → Host.Outcome State Fault Refusal
  | .next t => .next (f t)
  | .fault r => .fault r
  | .refused r => .refused r

/-- The unit neither reads nor writes a field that a tick writes. -/
def IgnoresTickFields (unit : State → Host.Outcome State Fault Refusal) : Prop :=
  ∀ r s, unit (writeTick r s) = mapNext (writeTick r) (unit s)

/-! ## Disjoint state commutes (20_memory.md R69) -/

/-- A unit that writes the main loop's own fields and ignores those of a tick commutes with every tick. -/
theorem IgnoresTickFields.unit_tick {unit : State → Host.Outcome State Fault Refusal}
    (hu : IgnoresTickFields unit) {s t : State} (h : unit s = .next t) (hw : MainWrite s t)
    (l : Level) (w1 w2 : Wait) : unit (tick l w1 w2 s) = .next (tick l w1 w2 t) := by
  obtain ⟨m, rfl⟩ := hw
  obtain ⟨r, hr⟩ := tick_eq_writeTick l w1 w2 s
  rw [tick_writeMain, hr, hu, h, writeMain_writeTick]
  rfl

/-- The same of an operation on the state. -/
theorem tick_op_comm {op : State → State} {s : State} (hw : MainWrite s (op s))
    (hr : ∀ r s, op (writeTick r s) = writeTick r (op s)) (l : Level) (w1 w2 : Wait) :
    tick l w1 w2 (op s) = op (tick l w1 w2 s) := by
  have ignores : IgnoresTickFields fun s => .next (op s) := fun r s => congrArg _ (hr r s)
  exact (Host.Outcome.next.inj (ignores.unit_tick rfl hw l w1 w2)).symm

/-! ## The units of kind (d) ignore the fields of a tick -/

theorem onChar_writeTick (c : Byte) (r : TickFields) (s : State) :
    onChar c (writeTick r s) = writeTick r (onChar c s) := by
  unfold onChar
  change (if s.lineDiscard = true then _ else if h : s.lineLen.val + 1 < lineCapacity then _ else _) =
    writeTick r (if s.lineDiscard = true then _ else
      if h : s.lineLen.val + 1 < lineCapacity then _ else _)
  split
  · rfl
  · split <;> rfl

theorem forwardFrame_writeTick (f : List Byte) (r : TickFields) (s : State) :
    forwardFrame f (writeTick r s) = writeTick r (forwardFrame f s) := by
  have hc : (writeTick r s).connected = s.connected := rfl
  have hp : (writeTick r s).params = s.params := rfl
  simp only [forwardFrame, hc, hp]
  split
  · rfl
  · split <;> rfl

theorem endLine_writeTick (r : TickFields) (s : State) :
    endLine (writeTick r s) = writeTick r (endLine s) := by
  have ht : (writeTick r s).task = s.task := rfl
  simp only [endLine, ht]
  split <;> rfl

/-- Every command reads the line, the session and the parameters, and no field of a tick. -/
theorem exec_ignoresTickFields (i : Instr) : IgnoresTickFields (exec i) := by
  intro r s
  have hc : (writeTick r s).connected = s.connected := rfl
  have hd : (writeTick r s).draws = s.draws := rfl
  cases i with
  | serialNumber => rfl
  | swVersion => rfl
  | hwVersion => rfl
  | openSession p => cases p <;> rfl
  | closeSession => rfl
  | selectBitrate digit p =>
    simp only [exec, execSelectBitrate, hc, hd]
    split
    · rfl
    · split <;> rfl
  | customBitrate =>
    simp only [exec, execCustomBitrate, hc]
    split <;> rfl
  | setTimestamp digit p =>
    simp only [exec, execSetTimestamp, hd]
    split
    · split <;> rfl
    · rfl
  | transmit =>
    simp only [exec, execTransmit, hc, hd]
    split
    · split <;> rfl
    · rfl
  | other => rfl

theorem onTerminator_ignoresTickFields : IgnoresTickFields onTerminator := by
  intro r s
  obtain ⟨hd, h⟩ | ⟨hd, hl, h⟩ | ⟨hd, hl, i, t, hi, ht, h⟩ := onTerminator_cases s <;> rw [h]
  · unfold onTerminator
    exact if_pos hd
  · unfold onTerminator
    have undiscarded : ¬ s.lineDiscard = true := by simp [hd]
    exact (if_neg undiscarded).trans (if_pos hl)
  · have run : exec i (terminateLine (writeTick r s)) = .next (writeTick r t) := by
      have := exec_ignoresTickFields i r (terminateLine s)
      rwa [ht] at this
    rw [onTerminator_dispatches (s := writeTick r s) hd hl hi run, endLine_writeTick]
    rfl

theorem onHostByte_ignoresTickFields (c : Byte) : IgnoresTickFields (onHostByte c) := by
  intro r s
  unfold onHostByte
  split
  · rfl
  · split
    · exact onTerminator_ignoresTickFields r s
    · rw [onChar_writeTick]
      rfl

/-- Settles O60: each unit writes the main loop's own fields and ignores those of a tick. -/
theorem ticksCommuteWithMainLoopUnits : Obligations.TicksCommuteWithMainLoopUnits := by
  intro s l w1 w2
  refine ⟨fun bytes => ?_, ?_, fun c => ?_, ?_, ?_, fun i t h => ?_, fun c t h => ?_, ?_, fun f => ?_⟩
  · exact tick_op_comm (mainWrite_emit bytes s) (fun _ _ => rfl) l w1 w2
  · exact tick_op_comm (mainWrite_txDrain s.txRoom s) (fun _ _ => rfl) l w1 w2
  · exact tick_op_comm (mainWrite_onChar c s) (onChar_writeTick c) l w1 w2
  · exact tick_op_comm (mainWrite_terminateLine s) (fun _ _ => rfl) l w1 w2
  · exact tick_op_comm (mainWrite_resetLine s) (fun _ _ => rfl) l w1 w2
  · exact (exec_ignoresTickFields i).unit_tick h (mainWrite_exec h) l w1 w2
  · exact (onHostByte_ignoresTickFields c).unit_tick h (mainWrite_onHostByte h) l w1 w2
  · exact tick_op_comm (mainWrite_replySent s) (fun _ _ => rfl) l w1 w2
  · exact tick_op_comm (mainWrite_forwardFrame f s) (forwardFrame_writeTick f) l w1 w2

end Sys2Proof.Machine
end

section
/-! PROOF. O47: which event a step takes, and what it runs. -/

namespace Sys2Proof.Machine

/-- A step of a running block runs the schedule's next event (20_memory.md R69). -/
theorem step_scheduled {s : State} {e : Event} {rest : List Event} (hb : s.boot = .running)
    (hs : s.schedule = e :: rest) : step s = runEvent e { s with schedule := rest } := by
  simp only [step, unitStep, hb, nextEvent, hs]

/-- A step of a running block whose schedule is used up runs a free event (log 3). -/
theorem step_unscheduled {s : State} (hb : s.boot = .running) (hs : s.schedule = []) :
    step s = runEvent (Config.freeEvent s.draws) { s with draws := s.draws + 1 } := by
  simp only [step, unitStep, hb, nextEvent, hs]

theorem whenFree_free {s : State} (hp : s.txPending = []) (hc : s.task = .choosing)
    (unit : State → Host.Outcome State Fault Refusal) : whenFree s unit = unit s :=
  if_pos ⟨hp, hc⟩

theorem whenFree_busy {s : State} (h : s.txPending ≠ [] ∨ s.task ≠ .choosing)
    (unit : State → Host.Outcome State Fault Refusal) : whenFree s unit = .next s :=
  if_neg fun ⟨hp, hc⟩ => h.elim (· hp) (· hc)

theorem proceed_stays {s : State} (h : s.txPending ≠ [] ∨ s.task = .choosing) : proceed s = s := by
  obtain ⟨_, e⟩ | ⟨hp, ⟨_, _, ht, _⟩ | ⟨ht, _⟩ | ⟨_, ht, _⟩⟩ := proceed_cases s
  · exact e
  all_goals simp [hp, ht] at h

theorem proceed_transmitting {s : State} (hp : s.txPending = []) {addr : Byte} {data : List Byte}
    (ht : s.task = .transmitting addr data) : proceed s = sendFrame addr data s := by
  simp only [proceed, if_pos hp, ht]

theorem proceed_replying {s : State} (hp : s.txPending = []) (ht : s.task = .replying) :
    proceed s = resetLine (replySent s) := by simp only [proceed, if_pos hp, ht]

theorem proceed_forwarding {s : State} (hp : s.txPending = []) {f : List Byte}
    (ht : s.task = .forwarding f) : proceed s = forwardFrame f s := by
  simp only [proceed, if_pos hp, ht]

theorem serveHost_nil {s : State} (h : s.serialRx = []) : serveHost s = .next s := by
  simp only [serveHost, h]

theorem serveHost_cons {s : State} {c : Byte} {more : List Byte} (h : s.serialRx = c :: more) :
    serveHost s = onHostByte c { s with serialRx := more } := by simp only [serveHost, h]

/-- Settles O47: the step runs the event (`step_scheduled`), which runs its unit where the main loop is
free for it, and else leaves the state as it is. -/
theorem stepTakesNextEvent : Obligations.StepTakesNextEvent := by
  intro s u e rest hb hs hu
  have run : step s = runEvent e u := hu ▸ step_scheduled hb hs
  have hbu : u.boot = .running := by rw [hu]; exact hb
  have hp : u.txPending = s.txPending := by rw [hu]
  have ht : u.task = s.task := by rw [hu]
  have hrx : u.serialRx = s.serialRx := by rw [hu]
  have hd : u.draws = s.draws := by rw [hu]
  rw [run, ← hp, ← ht, ← hrx, ← hd]
  refine ⟨?_, ?_, ?_, fun hfree hc => ⟨?_, ?_, ?_, ?_⟩, fun he busy => ?_, ?_, ?_⟩
  · rintro l w1 w2 rfl
    rfl
  · rintro b rfl
    rfl
  · rintro room rfl
    rfl
  · rintro rfl
    exact whenFree_free hfree hc fun s => .next (takeFrame s)
  · rintro rfl
    subst hu
    exact whenFree_free hfree hc fun s => .next (readErrors s)
  · rintro rfl hn
    exact (whenFree_free hfree hc _).trans (serveHost_nil hn)
  · rintro c more rfl hn
    exact (whenFree_free hfree hc _).trans (serveHost_cons hn)
  · rcases he with rfl | rfl | rfl
    · exact whenFree_busy busy serveHost
    · exact whenFree_busy busy fun s => .next (takeFrame s)
    · exact whenFree_busy busy fun s => .next (readErrors s)
  · rintro rfl
    refine ⟨rfl, fun h => congrArg _ (proceed_stays h), fun hfree => ⟨?_, ?_, ?_⟩⟩
    · exact fun _ _ h => congrArg _ (proceed_transmitting hfree h)
    · exact fun h => congrArg _ (proceed_replying hfree h)
    · exact fun _ h => congrArg _ (proceed_forwarding hfree h)
  · have free := step_unscheduled (s := { u with schedule := [] }) hbu rfl
    have scheduled := step_scheduled (rest := [])
      (s := { u with schedule := [Config.freeEvent u.draws], draws := u.draws + 1 }) hbu rfl
    exact free.trans scheduled.symm

end Sys2Proof.Machine
end

section
/-! PROOF. O1 to O6: the encoding (30_encoding.md). The decoder reads each row of the opcode map, and the
encoder writes back every character that was read. -/

namespace Sys2Proof

/-- A claim about a command byte holds if it holds of each listed byte and of every unlisted one
(30_encoding.md R85). -/
theorem opcode_cases {P : Byte → Prop} (upperN : P Ascii.upperN) (lowerV : P Ascii.lowerV)
    (upperV : P Ascii.upperV) (upperO : P Ascii.upperO) (upperC : P Ascii.upperC)
    (upperS : P Ascii.upperS) (lowerS : P Ascii.lowerS) (upperZ : P Ascii.upperZ)
    (lowerT : P Ascii.lowerT) (unlisted : ∀ op, op ∉ listedOpcodes → P op) (op : Byte) : P op := by
  by_cases h : op ∈ listedOpcodes
  · simp only [listedOpcodes, List.mem_cons, List.not_mem_nil, or_false] at h
    rcases h with rfl | rfl | rfl | rfl | rfl | rfl | rfl | rfl | rfl <;> assumption
  · exact unlisted op h

/-! ## Decoding, then encoding -/

/-- A line that decodes is a command byte and at most 24 characters, read by `decodeOp`. -/
theorem decode_ok_iff {line : List Byte} {i : Instr} :
    decode line = .ok i ↔ ∃ op p, line = op :: p ∧ p.length ≤ 24 ∧ i = decodeOp op p := by
  constructor
  · intro h
    match line with
    | [] => cases h
    | op :: p =>
      unfold decode at h
      dsimp only at h
      split at h
      next hl =>
        cases h
        exact ⟨op, p, rfl, Nat.le_of_succ_le_succ hl, rfl⟩
      next => cases h
  · rintro ⟨op, p, rfl, hl, rfl⟩
    exact decode_cons op p (Nat.succ_le_succ hl)

theorem head?_toList_append_tail (p : List Byte) : p.head?.toList ++ p.tail = p := by
  cases p <;> rfl

theorem head?_isSome_or_tail_isEmpty (p : List Byte) :
    (p.head?.isSome || p.tail.isEmpty) = true := by
  cases p <;> rfl

/-- The four fields of a `t` payload, put together again, are the payload (30_encoding.md R86). -/
theorem encode_decodeTransmit (p : List Byte) : encode (decodeTransmit p) = Ascii.lowerT :: p := by
  match p with
  | [] | [_] | [_, _] | [_, _, _] => rfl
  | a :: b :: c :: d :: rest =>
    simp [decodeTransmit_long, encode, transmitPayload, List.take_append_drop]

/-- The four fields of a `t` payload leave no gap. -/
theorem fieldsOk_decodeTransmit (p : List Byte) : (decodeTransmit p).fieldsOk = true := by
  match p with
  | [] | [_] | [_, _] | [_, _, _] => rfl
  | a :: b :: c :: d :: rest =>
    have data : (rest.take (dataDigitCount d)).length ≤ dataDigitCount d := List.length_take_le ..
    have noGap : rest.drop (dataDigitCount d) = [] ∨
        (rest.take (dataDigitCount d)).length = dataDigitCount d :=
      (Nat.le_total rest.length (dataDigitCount d)).imp List.drop_eq_nil_of_le
        List.length_take_of_le
    simpa [decodeTransmit_long, Instr.fieldsOk, transmitFieldsOk] using noGap

theorem encode_decodeOp (op : Byte) (p : List Byte) : encode (decodeOp op p) = op :: p := by
  cases op using opcode_cases with
  | upperS => exact congrArg (Ascii.upperS :: ·) (head?_toList_append_tail p)
  | upperZ => exact congrArg (Ascii.upperZ :: ·) (head?_toList_append_tail p)
  | lowerT => exact encode_decodeTransmit p
  | unlisted op h => rw [decodeOp_unlisted h]; rfl
  | _ => rfl

theorem fieldsOk_decodeOp (op : Byte) (p : List Byte) : (decodeOp op p).fieldsOk = true := by
  cases op using opcode_cases with
  | upperS => exact head?_isSome_or_tail_isEmpty p
  | upperZ => exact head?_isSome_or_tail_isEmpty p
  | lowerT => exact fieldsOk_decodeTransmit p
  | unlisted op h => simpa [decodeOp_unlisted h, Instr.fieldsOk] using h
  | _ => rfl

theorem fieldsOk_other_iff {op : Byte} {p : List Byte} :
    (Instr.other op p).fieldsOk = true ↔ op ∉ listedOpcodes := by
  simp [Instr.fieldsOk]

/-! ## Encoding, then decoding -/

theorem head?_tail_of_noGap {digit : Option Byte} {rest : List Byte}
    (h : (digit.isSome || rest.isEmpty) = true) :
    (digit.toList ++ rest).head? = digit ∧ (digit.toList ++ rest).tail = rest := by
  cases digit with
  | none =>
    obtain rfl : rest = [] := by simpa using h
    exact ⟨rfl, rfl⟩
  | some d => exact ⟨rfl, rfl⟩

theorem decodeTransmit_transmitPayload {idDigits : List Byte} {lenDigit : Option Byte}
    {dataDigits ignored : List Byte}
    (h : transmitFieldsOk idDigits lenDigit dataDigits ignored = true) :
    decodeTransmit (transmitPayload idDigits lenDigit dataDigits ignored) =
      .transmit idDigits lenDigit dataDigits ignored := by
  cases lenDigit with
  | none =>
    obtain ⟨⟨hid, rfl⟩, rfl⟩ : (idDigits.length ≤ 3 ∧ dataDigits = []) ∧ ignored = [] := by
      simpa [transmitFieldsOk] using h
    simpa [transmitPayload] using decodeTransmit_short hid
  | some d =>
    obtain ⟨⟨hid, hdata⟩, noGap⟩ : (idDigits.length = 3 ∧ dataDigits.length ≤ dataDigitCount d) ∧
        (ignored = [] ∨ dataDigits.length = dataDigitCount d) := by
      simpa [transmitFieldsOk] using h
    obtain ⟨a, b, c, rfl⟩ := List.length_eq_three.mp hid
    have line : transmitPayload [a, b, c] (some d) dataDigits ignored =
        a :: b :: c :: d :: (dataDigits ++ ignored) := rfl
    rw [line, decodeTransmit_long]
    rcases noGap with rfl | full
    · rw [List.append_nil, List.take_of_length_le hdata, List.drop_eq_nil_of_le hdata]
    · rw [List.take_left' full, List.drop_left' full]

/-- The command byte and the payload of an instruction without gaps select the instruction. -/
theorem decodeOp_of_encode {i : Instr} {op : Byte} {p : List Byte} (hf : i.fieldsOk = true)
    (he : encode i = op :: p) : decodeOp op p = i := by
  cases i <;> cases he
  case selectBitrate digit ignored =>
    obtain ⟨hd, hr⟩ := head?_tail_of_noGap hf
    rw [decodeOp_upperS, hd, hr]
  case setTimestamp digit extra =>
    obtain ⟨hd, hr⟩ := head?_tail_of_noGap hf
    rw [decodeOp_upperZ, hd, hr]
  case transmit => exact decodeTransmit_transmitPayload hf
  case other => exact decodeOp_unlisted (fieldsOk_other_iff.mp hf) p
  all_goals rfl

theorem wellFormed_iff {i : Instr} : i.WellFormed ↔
    (encode i).length ≤ maxLine ∧ (∀ c ∈ encode i, storable c = true) ∧ i.fieldsOk = true := by
  simp only [Instr.WellFormed, Instr.wf, Bool.and_eq_true, decide_eq_true_eq, List.all_eq_true,
    and_assoc]

/-! ## Table words and hex digits -/

/-- A table word of eight bits is a line of a command byte alone (log 1). -/
theorem decodeTableWord_byte (w : Nat) :
    decodeTableWord 8 w = some (decodeOp (BitVec.ofNat 8 w) []) := rfl

theorem hexval_decimal {c : Byte} (h : 0x30 ≤ c.toNat ∧ c.toNat ≤ 0x39) :
    hexval c = c.toNat - 0x30 := if_pos h

theorem hexval_upper {c : Byte} (h : 0x41 ≤ c.toNat ∧ c.toNat ≤ 0x46) :
    hexval c = c.toNat - 0x41 + 10 := by
  have notDecimal : ¬(0x30 ≤ c.toNat ∧ c.toNat ≤ 0x39) := by omega
  exact (if_neg notDecimal).trans (if_pos h)

theorem hexval_lower {c : Byte} (h : 0x61 ≤ c.toNat ∧ c.toNat ≤ 0x66) :
    hexval c = c.toNat - 0x61 + 10 := by
  have notDecimal : ¬(0x30 ≤ c.toNat ∧ c.toNat ≤ 0x39) := by omega
  have notUpper : ¬(0x41 ≤ c.toNat ∧ c.toNat ≤ 0x46) := by omega
  exact (if_neg notDecimal).trans ((if_neg notUpper).trans (if_pos h))

/-! ## The obligations -/

/-- Settles O2: the encoding is a command byte and a payload, from which `decodeOp` reads the fields back
because they leave no gap. -/
theorem decodeInvertsEncode : Obligations.DecodeInvertsEncode := by
  intro i hw
  obtain ⟨hlen, -, hfields⟩ := wellFormed_iff.mp hw
  obtain ⟨op, p, he⟩ : ∃ op p, encode i = op :: p := by cases i <;> exact ⟨_, _, rfl⟩
  rw [he] at hlen ⊢
  rw [decode_cons op p hlen, decodeOp_of_encode hfields he]

/-- Settles O3: `encode_decodeOp`, row by row. -/
theorem encodeInvertsDecode : Obligations.EncodeInvertsDecode := by
  intro line i h
  obtain ⟨op, p, rfl, -, rfl⟩ := decode_ok_iff.mp h
  exact encode_decodeOp op p

/-- Settles O4: the fields read from a line leave no gap, and they encode to that line's characters. -/
theorem everyStorableLineIsWellFormed : Obligations.EveryStorableLineIsWellFormed := by
  intro line hpos hlen hstorable
  obtain ⟨op, p, rfl⟩ := List.exists_cons_of_length_pos hpos
  refine ⟨decodeOp op p, decode_cons op p hlen, wellFormed_iff.mpr ?_⟩
  rw [encode_decodeOp]
  exact ⟨hlen, hstorable, fieldsOk_decodeOp op p⟩

/-- Settles O1: each one-byte word is its row's command byte alone (`decodeTableWord_byte`). -/
theorem tableWordsDecodeToTheirRows : Obligations.TableWordsDecodeToTheirRows := by
  refine ⟨decodeTableWord_byte _, decodeTableWord_byte _, decodeTableWord_byte _,
    decodeTableWord_byte _, decodeTableWord_byte _, decodeTableWord_byte _, decodeTableWord_byte _,
    decodeTableWord_byte _, decodeTableWord_byte _, decodeTableWord_byte _, ?_, ?_⟩
  · exact decode_cons Ascii.upperS _ (by decide)
  · exact decode_cons Ascii.lowerT _ (by decide)

/-- Settles O5: the last row has no gap only on an unlisted byte, and it keeps the byte. -/
theorem unlistedOpcodeIsOther : Obligations.UnlistedOpcodeIsOther := by
  intro op payload hlen
  rw [decode_cons op payload (Nat.succ_le_succ hlen)]
  constructor
  · rintro ⟨o, p, h⟩
    have row : decodeOp op payload = .other o p := Except.ok.inj h
    have line : o :: p = op :: payload := by rw [← encode_decodeOp op payload, row]; rfl
    obtain ⟨rfl, rfl⟩ := List.cons.inj line
    exact fieldsOk_other_iff.mp (row ▸ fieldsOk_decodeOp o p)
  · exact fun h => ⟨op, payload, congrArg _ (decodeOp_unlisted h payload)⟩

/-- Settles O6: the three ranges of R89 are disjoint, and outside them `hexval` takes its last branch. -/
theorem hexDigitsDecode : Obligations.HexDigitsDecode := by
  intro c
  refine ⟨fun lo hi => hexval_decimal ⟨lo, hi⟩, fun lo hi => hexval_upper ⟨lo, hi⟩,
    fun lo hi => hexval_lower ⟨lo, hi⟩, fun notDecimal notUpper notLower => ?_⟩
  exact (if_neg notDecimal).trans ((if_neg notUpper).trans (if_neg notLower))

end Sys2Proof
end

section
/-! PROOF. O7 to O14: one tick of the Receiver (40_receiver.md), position by position. -/

namespace Sys2Proof.Machine

/-! ## Which rule a taken tick runs (40_receiver.md R120) -/

section
variable {s : State} (hi : s.irqEnabled = true)
include hi

theorem tick_detectBreak (hm : s.rxMode = .detectBreak) (l : Level) (w1 w2 : Wait) :
    tick l w1 w2 s = detectBreakTick l w1 w2 s := by
  simp only [tick_enabled hi, receiverTick, hm]

theorem tick_readData (hm : s.rxMode = .readData) (l : Level) (w1 w2 : Wait) :
    tick l w1 w2 s = readDataTick l w1 s := by
  simp only [tick_enabled hi, receiverTick, hm]

theorem tick_startBit (hm : s.rxMode = .readData) (hb : s.bitPos = 0) (l : Level) (w1 w2 : Wait) :
    tick l w1 w2 s = startBitTick l s :=
  (tick_readData hi hm l w1 w2).trans (if_pos hb)

theorem tick_dataBit (hm : s.rxMode = .readData) (hlo : 1 ≤ s.bitPos) (hhi : s.bitPos ≤ 8)
    (l : Level) (w1 w2 : Wait) : tick l w1 w2 s = dataBitTick l s :=
  (tick_readData hi hm l w1 w2).trans
    ((if_neg (Nat.one_le_iff_ne_zero.mp hlo)).trans (if_pos hhi))

theorem tick_stopBit (hm : s.rxMode = .readData) (hb : s.bitPos = 9) (l : Level) (w1 w2 : Wait) :
    tick l w1 w2 s = stopBitTick l w1 s := by
  rw [tick_readData hi hm, readDataTick, if_neg (by omega), if_neg (by omega)]

end

/-! ## The rules, case by case -/

theorem detectBreakTick_low_counts {s : State} (h : s.lowCount + 1 ≠ 10) (w1 w2 : Wait) :
    detectBreakTick .low w1 w2 s = { s with lowCount := s.lowCount + 1 } := if_neg h

theorem detectBreakTick_low_tenth_edge {s : State} (h : s.lowCount + 1 = 10) (syncStart : Wait) :
    detectBreakTick .low .edge syncStart s =
      enterReadData syncStart { s with lowCount := s.lowCount + 1 } := if_pos h

theorem detectBreakTick_low_tenth_timeout {s : State} (h : s.lowCount + 1 = 10) (syncStart : Wait) :
    detectBreakTick .low .timeout syncStart s =
      enterDetectBreak { s with lowCount := s.lowCount + 1 } := if_pos h

theorem startBitTick_high_first {s : State} (h : s.byteCount = 0) :
    startBitTick .high s = enterDetectBreak (raise .syncByte s) := by
  simp only [startBitTick, if_pos h]

theorem startBitTick_high_later {s : State} (h : s.byteCount ≠ 0) :
    startBitTick .high s = enterDetectBreak (raise .startBit s) := by
  simp only [startBitTick, if_neg h]

theorem stopBitTick_low_first {s : State} (h : s.byteCount = 0) (w : Wait) :
    stopBitTick .low w s = enterDetectBreak (raise .syncByte s) := by
  simp only [stopBitTick, if_pos h]

theorem stopBitTick_low_later {s : State} (h : s.byteCount ≠ 0) (w : Wait) :
    stopBitTick .low w s = enterDetectBreak (raise .stopBit s) := by
  simp only [stopBitTick, if_neg h]

theorem stopBitTick_high_first {s : State} (h : s.byteCount = 0) (w : Wait) :
    stopBitTick .high w s = syncByteDone w s := if_pos h

theorem stopBitTick_high_later {s : State} (h : s.byteCount ≠ 0) (w : Wait) :
    stopBitTick .high w s = frameByteDone w s := if_neg h

theorem syncByteDone_other {s : State} (h : s.acc ≠ syncValue) (w : Wait) :
    syncByteDone w s = enterDetectBreak (raise .syncByte s) := if_pos h

theorem syncByteDone_sync {s : State} (h : s.acc = syncValue) (w : Wait) :
    syncByteDone w s = interByteWait w { s with byteCount := 1, bitPos := 0 } :=
  if_neg (not_not_intro h)

theorem interByteWait_timeout_empty {s : State} (h : (slotAt s.head s).length.val < 1) :
    interByteWait .timeout s = enterDetectBreak (raise .frameTooShort s) := if_pos h

theorem interByteWait_timeout_frame {s : State} (h : 1 ≤ (slotAt s.head s).length.val) :
    interByteWait .timeout s = enterDetectBreak (handOff s) := if_neg (Nat.not_lt.mpr h)

theorem interByteWait_edge_full {s : State} (h : (slotAt s.head s).length.val = 10) :
    interByteWait .edge s = enterDetectBreak (raise .frameTooLong s) := if_pos h

theorem interByteWait_edge_room {s : State} (h : (slotAt s.head s).length.val ≠ 10) :
    interByteWait .edge s = timerRephase s := if_neg h

/-- Setting a bit of a byte: that bit is the level, every other bit is kept (40_receiver.md R126). -/
theorem getLsbD_setBit (b : Byte) (l : Level) {k j : Nat} (hj : j < 8) :
    (setBit b k l).getLsbD j = if j = k then l == .high else b.getLsbD j := by
  have mask : (1#8 <<< k).getLsbD j = decide (j = k) := by
    rw [BitVec.getLsbD_shiftLeft, BitVec.getLsbD_one, Bool.eq_iff_iff]
    simp only [Bool.and_eq_true, Bool.not_eq_true', decide_eq_true_eq, decide_eq_false_iff_not]
    omega
  cases l with
  | high =>
    simp only [setBit, BitVec.getLsbD_or, mask]
    by_cases h : j = k <;> simp [h]
  | low =>
    simp only [setBit, BitVec.getLsbD_and, BitVec.getLsbD_not, mask]
    by_cases h : j = k <;> simp [h, hj]

/-! ## The obligations -/

/-- Settles O7: the rule of R122. -/
theorem highSampleRestartsBreakCount : Obligations.HighSampleRestartsBreakCount :=
  fun _ w1 w2 hi hm => tick_detectBreak hi hm .high w1 w2

/-- Settles O8: below ten the sample only counts; at ten the waits' outcomes say which mode is entered. -/
theorem tenthLowSampleRecognisesBreak : Obligations.TenthLowSampleRecognisesBreak := by
  intro s w1 w2 hi hm
  rw [tick_detectBreak hi hm]
  refine ⟨fun h => detectBreakTick_low_counts h w1 w2, fun h => ?_, fun h => ?_, fun h => ?_⟩
  · rintro rfl
    rw [detectBreakTick_low_tenth_timeout h, enterDetectBreak, hm]
  · rintro rfl rfl
    rw [detectBreakTick_low_tenth_edge h, h]
    rfl
  · rintro rfl rfl
    rw [detectBreakTick_low_tenth_edge h, hm]
    rfl

/-- Settles O9: the rule of R125 at each sample, and for a high one at each place of the byte. -/
theorem startBitMustBeLow : Obligations.StartBitMustBeLow := by
  intro s w1 w2 hi hm hb
  simp only [tick_startBit hi hm hb]
  exact ⟨rfl, startBitTick_high_first, startBitTick_high_later⟩

/-- Settles O10: the byte written is `setBit`'s, whose bits `getLsbD_setBit` gives. -/
theorem dataBitWritesAccumulatorBit : Obligations.DataBitWritesAccumulatorBit := by
  rintro s l w1 w2 _ hi hm rfl hlo hhi
  exact ⟨setBit s.acc (s.bitPos - 1) l, tick_dataBit hi hm hlo hhi l w1 w2,
    fun j hj => getLsbD_setBit s.acc l hj⟩

/-- Settles O11: the rule of R127 at each place of the byte. -/
theorem stopBitMustBeHigh : Obligations.StopBitMustBeHigh := by
  intro s w1 w2 hi hm hb
  rw [tick_stopBit hi hm hb]
  exact ⟨fun h => stopBitTick_low_first h w1, fun h => stopBitTick_low_later h w1⟩

/-- Settles O12: the sync byte leaves the slot as it is, empty, so the wait it starts never finds a full
frame, nor one to hand off. -/
theorem syncByteIsCheckedNotStored : Obligations.SyncByteIsCheckedNotStored := by
  intro s w1 w2 hi hm hb hc hempty
  rw [tick_stopBit hi hm hb, stopBitTick_high_first hc]
  have short : (slotAt s.head s).length.val < 1 := by omega
  have room : (slotAt s.head s).length.val ≠ 10 := by omega
  refine ⟨fun h => syncByteDone_other h w1, fun h => ?_, fun h => ?_⟩
  · rintro rfl
    exact (syncByteDone_sync h .edge).trans (interByteWait_edge_room room)
  · rintro rfl
    exact (syncByteDone_sync h .timeout).trans (interByteWait_timeout_empty short)

/-- Settles O13: the slot with the byte appended has n + 1 bytes, and this length is what the wait's two
outcomes look at. -/
theorem frameByteIsAppended : Obligations.FrameByteIsAppended := by
  rintro s w1 w2 n hi hm hb hc hn hle
  rw [tick_stopBit hi hm hb, stopBitTick_high_later (Nat.one_le_iff_ne_zero.mp hc)]
  have notFull : (slotAt s.head s).length.val < 10 := by omega
  obtain ⟨f, hf⟩ : ∃ f, f = slotAppend s.acc (slotAt s.head s) := ⟨_, rfl⟩
  have len : f.length.val = n + 1 := by rw [hf, slotAppend_length s.acc notFull, hn]
  have done : frameByteDone w1 s = interByteWait w1
      { s with slots := s.slots.set s.head f, byteCount := s.byteCount + 1, bitPos := 0 } := by
    rw [hf]; rfl
  have slot : (slotAt s.head (setSlot s.head f s)).length.val = n + 1 := by
    rw [slotAt_setSlot_self, len]
  refine ⟨f, len, hf ▸ slotFrame_slotAppend s.acc notFull, ?_, ?_, ?_⟩
  · rintro rfl
    exact done.trans (interByteWait_timeout_frame (slot.ge.trans' (Nat.succ_pos n)))
  · rintro rfl hlt
    exact done.trans (interByteWait_edge_room (slot.trans_ne (by omega)))
  · rintro rfl rfl
    exact done.trans (interByteWait_edge_full slot)

/-- Settles O14: taking the interrupt is the one place where a tick looks at the mask. -/
theorem maskedTickRunsNothing : Obligations.MaskedTickRunsNothing := by
  intro s l w1 w2 hi
  rcases takeInterrupt_cases (receiverTick l w1 w2) s with ⟨enabled, _⟩ | ⟨_, h⟩
  · exact absurd (hi.symm.trans enabled) Bool.false_ne_true
  · exact h

end Sys2Proof.Machine
end

section
/-! PROOF. The frame a transmission sends is valid: what both checksums compute, and what an identifier's
parity bits depend on (41_validator.md, 43_transmitter.md). -/

namespace Sys2Proof.Machine

/-! ## The two checksums (41_validator.md R162, R166; 43_transmitter.md R201) -/

/-- What both ways of folding the carry leave of a total: its residue modulo 255, taken in 1..255 unless the
total is 0. `foldCarry_eq_foldedSum` and `foldl_txFold` tie it to the model. -/
def foldedSum (total : Nat) : Nat := if total = 0 then 0 else (total - 1) % 255 + 1

theorem foldedSum_of_le {total : Nat} (h : total ≤ 255) : foldedSum total = total := by
  unfold foldedSum
  split <;> omega

theorem foldedSum_add_mul {n : Nat} (h : 0 < n) (k : Nat) : foldedSum (n + 255 * k) = foldedSum n := by
  rw [foldedSum, foldedSum, if_neg (by omega), if_neg (by omega)]
  omega

/-- Folding the carry back takes a multiple of 255 away and leaves something. -/
theorem foldCarry_eq_foldedSum {fuel total : Nat} (h : total ≤ fuel) :
    foldCarry fuel total = foldedSum total := by
  induction fuel generalizing total with
  | zero => exact (foldedSum_of_le (total := total) (by omega)).symm
  | succ fuel ih =>
    by_cases carry : total > 255
    · have split : total = total % 256 + total / 256 + 255 * (total / 256) := by omega
      calc foldCarry (fuel + 1) total
        _ = foldCarry fuel (total % 256 + total / 256) := if_pos carry
        _ = foldedSum (total % 256 + total / 256) := ih (by omega)
        _ = foldedSum (total % 256 + total / 256 + 255 * (total / 256)) :=
          (foldedSum_add_mul (by omega) _).symm
        _ = foldedSum total := by rw [← split]
    · exact (if_neg carry).trans (foldedSum_of_le (by omega)).symm

theorem txFold_foldedSum (n : Nat) (b : Byte) : txFold (foldedSum n) b = foldedSum (n + b.toNat) := by
  have := b.isLt
  unfold txFold foldedSum
  split_ifs <;> omega

theorem foldl_txFold (bytes : List Byte) (n : Nat) :
    bytes.foldl txFold (foldedSum n) = foldedSum (n + byteSum bytes) := by
  induction bytes generalizing n with
  | nil => rfl
  | cons b bs ih =>
    rw [List.foldl_cons, txFold_foldedSum, ih, Nat.add_assoc]
    rfl

theorem checksum_eq_foldedSum (bytes : List Byte) :
    checksum bytes = ~~~ BitVec.ofNat 8 (foldedSum (byteSum bytes)) := by
  rw [checksum, foldCarry_eq_foldedSum le_rfl]

theorem txChecksum_eq_foldedSum (bytes : List Byte) :
    txChecksum bytes = ~~~ BitVec.ofNat 8 (foldedSum (byteSum bytes)) := by
  rw [txChecksum, ← foldedSum_of_le (Nat.zero_le 255), foldl_txFold, Nat.zero_add]

theorem checksum_eq_txChecksum (bytes : List Byte) : checksum bytes = txChecksum bytes :=
  (checksum_eq_foldedSum bytes).trans (txChecksum_eq_foldedSum bytes).symm

/-! ## The protected identifier (41_validator.md R160, R161) -/

/-- The parity bits stand above the address and leave it as it is. -/
theorem pid_and_address (x : Byte) : pid x &&& 0x3F#8 = x &&& 0x3F#8 := by
  simp only [pid]
  generalize parityBits (x &&& 0x3F#8) = p
  obtain ⟨p0, p1⟩ := p
  cases p0 <;> cases p1 <;> simp [BitVec.and_or_distrib_right, BitVec.and_assoc]

theorem pid_pid (x : Byte) : pid (pid x) = pid x := by
  rw [pid, pid_and_address, ← pid]

/-! ## The frame (41_validator.md R164 to R166) -/

/-- An identifier with its own parity, 1 to 8 data bytes and the checksum of them all pass isValid. -/
theorem isValid_of_txChecksum {id : Byte} {data : List Byte} (hid : id = pid id)
    (hlo : 1 ≤ data.length) (hhi : data.length ≤ 8) :
    isValid true (id :: data ++ [txChecksum (id :: data)]) = true := by
  have length : (id :: data ++ [txChecksum (id :: data)]).length = data.length + 2 := by simp
  have shape : structOk (data.length + 2) = true := by
    simp [structOk]
    omega
  have summed : checksumBytes true (id :: data ++ [txChecksum (id :: data)]) = id :: data := by
    simp [checksumBytes]
  have last : (id :: data ++ [txChecksum (id :: data)]).getD (data.length + 1) 0x00#8 =
      txChecksum (id :: data) := by simp
  have first : (id :: data ++ [txChecksum (id :: data)]).getD 0 0x00#8 = id := rfl
  simp only [isValid, length, shape, summed, first, checksum_eq_txChecksum,
    Nat.add_succ_sub_one, last, ← hid, beq_self_eq_true, Bool.or_true, Bool.and_self]

end Sys2Proof.Machine
end

section
/-! PROOF. O19: a transmitted frame, tick by tick. The break starts an empty frame, every byte that an edge
follows leaves the Receiver at the next start bit with one byte more, and silence after the last one hands
the frame off. -/

namespace Sys2Proof.Machine

/-! ## Feeding levels -/

theorem feed_cons (l : Level) (ls : List Level) (w : Wait) (s : State) :
    feed (l :: ls) w s = feed ls w (tick l w w s) := rfl

theorem feed_append (ls ms : List Level) (w : Wait) (s : State) :
    feed (ls ++ ms) w s = feed ms w (feed ls w s) := List.foldl_append

theorem wireBytes_cons (b : Byte) (bs : List Byte) :
    wireBytes (b :: bs) = wireByte b ++ wireBytes bs := rfl

@[simp] theorem levelOf_beq_high (bit : Bool) : (levelOf bit == .high) = bit := by
  cases bit <;> rfl

/-! ## The break (40_receiver.md R123, R124) -/

/-- Fewer low samples than a break needs are counted. -/
theorem feed_lows_counts {s : State} (hi : s.irqEnabled = true) (hm : s.rxMode = .detectBreak)
    (w : Wait) {n : Nat} (h : s.lowCount + n < 10) :
    feed (List.replicate n .low) w s = { s with lowCount := s.lowCount + n } := by
  induction n with
  | zero => rfl
  | succ n ih =>
    obtain ⟨counts, -⟩ :=
      tenthLowSampleRecognisesBreak { s with lowCount := s.lowCount + n } w w hi hm
    rw [List.replicate_succ', feed_append, ih (by omega)]
    exact counts h.ne

/-- Ten low samples, met by an idle Receiver, start an empty frame in the slot at head. -/
theorem feed_break {s : State} (hi : s.irqEnabled = true) (hm : s.rxMode = .detectBreak)
    (hl : s.lowCount = 0) :
    feed (List.replicate breakLowSamples .low) .edge s =
      { s with
        lowCount := 10, rxMode := .readData, byteCount := 0, bitPos := 0, timerPhase := .centred
        slots := s.slots.set s.head { slotAt s.head s with length := 0 } } := by
  have nine : feed (List.replicate 9 .low) .edge s = { s with lowCount := 9 } := by
    rw [feed_lows_counts hi hm .edge (by omega), hl]
  obtain ⟨-, -, tenth, -⟩ := tenthLowSampleRecognisesBreak { s with lowCount := 9 } .edge .edge hi hm
  rw [breakLowSamples, List.replicate_succ', feed_append, nine]
  exact tenth rfl rfl rfl

/-! ## One byte (40_receiver.md R125, R126; 43_transmitter.md R200) -/

/-- The levels of the low n bits of a byte put these bits into the accumulator. -/
theorem feed_dataBits {s : State} (hi : s.irqEnabled = true) (hm : s.rxMode = .readData)
    (b : Byte) (w : Wait) {n : Nat} (hn : n ≤ 8) :
    ∃ a : Byte, feed ((List.range n).map fun k => levelOf (b.getLsbD k)) w { s with bitPos := 1 } =
        { s with acc := a, bitPos := n + 1 } ∧
      ∀ j < n, a.getLsbD j = b.getLsbD j := by
  induction n with
  | zero => exact ⟨s.acc, rfl, nofun⟩
  | succ n ih =>
    obtain ⟨a, fed, bits⟩ := ih (by omega)
    obtain ⟨a', ticked, bits'⟩ := dataBitWritesAccumulatorBit { s with acc := a, bitPos := n + 1 }
      (levelOf (b.getLsbD n)) w w (n + 1) hi hm rfl (by omega) hn
    refine ⟨a', ?_, fun j hj => ?_⟩
    · rw [List.range_succ, List.map_append, feed_append, fed]
      exact ticked
    · rw [bits' j (by omega)]
      by_cases h : j = n
      · simp [h]
      · simp only [Nat.add_sub_cancel, if_neg h]
        exact bits j (by omega)

/-- A byte on the wire stands in the accumulator when its stop bit is sampled. -/
theorem feed_wireByte {s : State} (hi : s.irqEnabled = true) (hm : s.rxMode = .readData)
    (hb : s.bitPos = 0) (b : Byte) (w : Wait) :
    feed (wireByte b) w s = tick .high w w { s with acc := b, bitPos := 9 } := by
  have levels : wireByte b =
      .low :: ((List.range 8).map fun k => levelOf (b.getLsbD k)) ++ [.high] := rfl
  obtain ⟨started, -⟩ := startBitMustBeLow s w w hi hm hb
  obtain ⟨a, fed, bits⟩ := feed_dataBits hi hm b w le_rfl
  have whole : a = b := BitVec.eq_of_getLsbD_eq bits
  rw [levels, List.cons_append, feed_cons, feed_append, started, fed, whole]
  rfl

/-! ## The frame in progress (40_receiver.md R128 to R131) -/

/-- The Receiver, since it was in `s`, has taken a break, the sync byte and these bytes of a frame, and
waits at the start bit of the next one; the buffer's indices and the error byte are as they were. -/
structure Receiving (s : State) (frame : List Byte) (t : State) : Prop where
  irqEnabled : t.irqEnabled = true
  rxMode : t.rxMode = .readData
  bitPos : t.bitPos = 0
  synced : 1 ≤ t.byteCount
  slot : slotFrame (slotAt t.head t) = frame
  head : t.head = s.head
  tail : t.tail = s.tail
  errFlags : t.errFlags = s.errFlags

theorem Receiving.slot_length {s t : State} {frame : List Byte} (h : Receiving s frame t) :
    (slotAt t.head t).length.val = frame.length := by
  rw [← slotFrame_length, h.slot]

/-- A break and the sync byte begin an empty frame. -/
theorem receiving_break_sync {s : State} (hi : s.irqEnabled = true) (hm : s.rxMode = .detectBreak)
    (hl : s.lowCount = 0) :
    Receiving s [] (feed (wireByte syncValue) .edge
      (feed (List.replicate breakLowSamples .low) .edge s)) := by
  obtain ⟨t, ht⟩ : ∃ t, t = feed (List.replicate breakLowSamples .low) .edge s := ⟨_, rfl⟩
  have started := ht.trans (feed_break hi hm hl)
  have empty : (slotAt t.head t).length.val = 0 := by simp [started, slotAt]
  have ti : t.irqEnabled = true := by rw [started]; exact hi
  have tm : t.rxMode = .readData := by rw [started]
  have tb : t.bitPos = 0 := by rw [started]
  have tc : t.byteCount = 0 := by rw [started]
  obtain ⟨-, goesOn, -⟩ :=
    syncByteIsCheckedNotStored { t with acc := syncValue, bitPos := 9 } .edge .edge ti tm rfl tc empty
  rw [← ht, feed_wireByte ti tm tb, goesOn rfl rfl]
  exact {
    irqEnabled := ti
    rxMode := tm
    bitPos := rfl
    synced := le_rfl
    slot := List.eq_nil_of_length_eq_zero ((slotFrame_length _).trans empty)
    head := by rw [started]
    tail := by rw [started]
    errFlags := by rw [started] }

/-- A byte that an edge follows is appended, and the next one is awaited. -/
theorem Receiving.byte {s t : State} {frame : List Byte} (h : Receiving s frame t)
    (hn : frame.length ≤ 8) (b : Byte) :
    Receiving s (frame ++ [b]) (feed (wireByte b) .edge t) := by
  obtain ⟨f, -, appended, -, goesOn, -⟩ :=
    frameByteIsAppended { t with acc := b, bitPos := 9 } .edge .edge frame.length h.irqEnabled h.rxMode
      rfl h.synced h.slot_length (by omega)
  rw [feed_wireByte h.irqEnabled h.rxMode h.bitPos, goesOn rfl (by omega)]
  exact { h with
    bitPos := rfl
    synced := Nat.le_add_left 1 t.byteCount
    slot := by
      rw [← h.slot]
      exact (congrArg slotFrame (slotAt_setSlot_self t.head f t)).trans appended }

theorem Receiving.bytes {s t : State} {frame : List Byte} (h : Receiving s frame t) (bs : List Byte)
    (hn : frame.length + bs.length ≤ 9) :
    Receiving s (frame ++ bs) (feed (wireBytes bs) .edge t) := by
  induction bs generalizing frame t with
  | nil => rwa [List.append_nil]
  | cons b bs ih =>
    rw [List.length_cons] at hn
    rw [wireBytes_cons, feed_append, List.append_cons]
    exact ih (h.byte (by omega) b) (by simp; omega)

/-- The last byte, followed by silence, completes the frame, which is handed off whole. -/
theorem Receiving.last_byte {s t : State} {frame : List Byte} (h : Receiving s frame t)
    (hn : frame.length ≤ 9) (b : Byte) :
    ∃ u : State, feed (wireByte b) .timeout t = enterDetectBreak (handOff u) ∧
      slotFrame (slotAt s.head u) = frame ++ [b] ∧
      u.head = s.head ∧ u.tail = s.tail ∧ u.errFlags = s.errFlags := by
  obtain ⟨f, -, appended, handedOff, -⟩ :=
    frameByteIsAppended { t with acc := b, bitPos := 9 } .timeout .timeout frame.length h.irqEnabled
      h.rxMode rfl h.synced h.slot_length hn
  refine ⟨_, (feed_wireByte h.irqEnabled h.rxMode h.bitPos b .timeout).trans (handedOff rfl), ?_,
    h.head, h.tail, h.errFlags⟩
  rw [← h.head, ← h.slot]
  exact (congrArg slotFrame (slotAt_setSlot_self t.head f t)).trans appended

/-- What an idle Receiver has after a break and a frame of at most ten bytes: the frame, handed off. -/
theorem feedFrame_handsOff {s : State} (hi : s.irqEnabled = true) (hm : s.rxMode = .detectBreak)
    (hl : s.lowCount = 0) {bytes : List Byte} (hn : bytes.length ≤ 9) (last : Byte) :
    ∃ u : State, feedFrame bytes last s = enterDetectBreak (handOff u) ∧
      slotFrame (slotAt s.head u) = bytes ++ [last] ∧
      u.head = s.head ∧ u.tail = s.tail ∧ u.errFlags = s.errFlags := by
  rw [feedFrame, wireBytes_cons, feed_append]
  exact ((receiving_break_sync hi hm hl).bytes bytes (by simpa using hn)).last_byte hn last

/-- Settles O19: the frame is handed off whole (`feedFrame_handsOff`), HandOff moves head past it, dropping
the oldest frame of a full buffer, and what was sent is valid (`isValid_of_txChecksum`). -/
theorem transmittedFrameIsReceivedWhole : Obligations.TransmittedFrameIsReceivedWhole := by
  intro s a data hi hm hl hlo hhi
  obtain ⟨id, hid⟩ : ∃ id, id = pid (a &&& 0x3F#8) := ⟨_, rfl⟩
  rw [← hid]
  obtain ⟨u, fed, frame, head, tail, flags⟩ :=
    feedFrame_handsOff hi hm hl (bytes := id :: data) (Nat.succ_le_succ hhi)
      (txChecksum (id :: data))
  have valid : isValid true (slotFrame (slotAt s.head u)) = true :=
    frame ▸ isValid_of_txChecksum (by rw [hid, pid_pid]) hlo hhi
  refine ⟨_, rfl, ?_⟩
  rw [fed, ← head, ← tail, ← flags]
  rw [← head] at frame valid
  rcases handOff_cases u with ⟨room, e⟩ | ⟨full, e⟩ <;> rw [e]
  · exact ⟨rfl, frame, valid, rfl, rfl, fun _ => ⟨rfl, rfl⟩, fun full => absurd full room⟩
  · exact ⟨rfl, frame, valid, rfl, rfl, fun room => absurd full room, fun _ => ⟨rfl, rfl⟩⟩

end Sys2Proof.Machine
end

section
/-! PROOF. O25 to O29: the checksum's closed form, which bits an identifier has, and what isValid says of a
frame of each shape (41_validator.md). -/

namespace Sys2Proof.Machine

/-! ## The checksum as a number (41_validator.md R162) -/

theorem foldedSum_le (total : Nat) : foldedSum total ≤ 255 := by
  unfold foldedSum
  split <;> omega

theorem checksum_toNat (bytes : List Byte) :
    (checksum bytes).toNat = 255 - foldedSum (byteSum bytes) := by
  have byte : foldedSum (byteSum bytes) < 2 ^ 8 := Nat.lt_succ_of_le (foldedSum_le _)
  rw [checksum_eq_foldedSum, BitVec.toNat_not, BitVec.toNat_ofNat, Nat.mod_eq_of_lt byte]

/-- Settles O26: the checksum is the complement of `foldedSum`. -/
theorem checksumHasClosedForm : Obligations.ChecksumHasClosedForm := by
  intro bytes
  rw [checksum_toNat, foldedSum]
  split <;> rfl

/-- Settles O27: both are the complement of `foldedSum`. -/
theorem validatorAndTransmitterChecksumsAgree : Obligations.ValidatorAndTransmitterChecksumsAgree :=
  checksum_eq_txChecksum

/-! ## What a changed byte does to the checksum (90_conflicts.md C14) -/

theorem byteSum_middle (before after : List Byte) (d : Byte) :
    byteSum (before ++ d :: after) = byteSum before + byteSum after + d.toNat := by
  simp only [byteSum, List.map_append, List.map_cons, List.sum_append, List.sum_cons]
  omega

/-- Of the summands up to 255 only 0 and 255 are congruent modulo 255, so all others change the folded sum. -/
theorem eq_or_zero_255_of_foldedSum_eq {rest m n : Nat} (hm : m ≤ 255) (hn : n ≤ 255)
    (h : foldedSum (rest + m) = foldedSum (rest + n)) :
    m = n ∨ (m = 0 ∧ n = 255) ∨ (m = 255 ∧ n = 0) := by
  unfold foldedSum at h
  split_ifs at h <;> omega

theorem foldedSum_eq_of_checksum_eq {bs cs : List Byte} (h : checksum bs = checksum cs) :
    foldedSum (byteSum bs) = foldedSum (byteSum cs) := by
  have complements := congrArg BitVec.toNat h
  rw [checksum_toNat, checksum_toNat] at complements
  exact (tsub_right_inj (foldedSum_le _) (foldedSum_le _)).mp complements

/-- The checksum tells two bytes at one place apart unless they are 0x00 and 0xFF. -/
theorem eq_or_zero_ones_of_checksum_eq {before after : List Byte} {d e : Byte}
    (h : checksum (before ++ d :: after) = checksum (before ++ e :: after)) :
    d = e ∨ (d = 0x00#8 ∧ e = 0xFF#8) ∨ (d = 0xFF#8 ∧ e = 0x00#8) := by
  have folded := foldedSum_eq_of_checksum_eq h
  rw [byteSum_middle, byteSum_middle] at folded
  simp only [← BitVec.toNat_inj]
  exact eq_or_zero_255_of_foldedSum_eq (Nat.le_of_lt_succ d.isLt) (Nat.le_of_lt_succ e.isLt) folded

/-! ## isValid of a frame of each shape (41_validator.md R163 to R165) -/

theorem structOk_iff (n : Nat) : structOk n = true ↔ n = 1 ∨ (3 ≤ n ∧ n ≤ 10) := by
  simp [structOk]

theorem isValid_singleton (includesId : Bool) (id : Byte) :
    isValid includesId [id] = true ↔ id = pid id := by
  simp [isValid, structOk]

theorem isValid_concat (includesId : Bool) (id : Byte) (data : List Byte) (c : Byte) :
    isValid includesId (id :: (data ++ [c])) = true ↔
      structOk (id :: (data ++ [c])).length = true ∧ id = pid id ∧
        c = checksum (if includesId then id :: data else data) := by
  have summed : checksumBytes includesId (id :: (data ++ [c])) =
      if includesId then id :: data else data := by
    simp [checksumBytes]
  have last : (id :: (data ++ [c])).getD (data.length + 1) 0x00#8 = c := by simp
  have first : (id :: (data ++ [c])).getD 0 0x00#8 = id := rfl
  have length : (id :: (data ++ [c])).length = data.length + 2 := by simp
  have notOne : (data.length + 2 == 1) = false := beq_false_of_ne (by omega)
  simp only [isValid, length, summed, first, Nat.add_succ_sub_one, last, notOne, Bool.false_or,
    Bool.and_eq_true, beq_iff_eq, and_assoc, eq_comm (a := c)]

/-- Settles O29: a frame is empty, an identifier alone, or an identifier, data and a last byte. -/
theorem isValidIsStructureParityChecksum : Obligations.IsValidIsStructureParityChecksum := by
  intro includesId f
  rcases f with _ | ⟨id, rest⟩
  · exact iff_of_false Bool.false_ne_true (by simp)
  · obtain rfl | ⟨data, c, rfl⟩ := rest.eq_nil_or_concat'
    · simp [isValid_singleton]
    · rw [isValid_concat, structOk_iff]
      exact and_congr_right fun _ => by simp

/-- Settles O28: the frame as sent is `isValid_of_txChecksum`; of a changed one, isValid would make the two
checksums equal (`isValid_concat`), which `eq_or_zero_ones_of_checksum_eq` excludes. -/
theorem transmittedFramesAreValid : Obligations.TransmittedFramesAreValid := by
  intro a before after d e hlen
  refine ⟨isValid_of_txChecksum (data := before ++ d :: after) (pid_pid a).symm
    (by simp; omega) (by simp; omega), fun changed notRise notFall => ?_⟩
  rw [← checksum_eq_txChecksum, Bool.eq_false_iff]
  intro valid
  obtain ⟨-, -, sameChecksum⟩ := (isValid_concat true (pid a) (before ++ e :: after) _).mp valid
  rcases eq_or_zero_ones_of_checksum_eq (before := pid a :: before) sameChecksum with h | h | h
  exacts [changed h, notRise h, notFall h]

/-! ## The bits of the protected identifier (41_validator.md R160, R161) -/

/-- The six low bits are the address's. -/
theorem getLsbD_and_address (x : Byte) {j : Nat} (hj : j < 6) :
    (x &&& 0x3F#8).getLsbD j = x.getLsbD j := by
  have mask : (0x3F#8).getLsbD j = true := by interval_cases j <;> rfl
  rw [BitVec.getLsbD_and, mask, Bool.and_true]

/-- Settles O25: the address bits are kept (`pid_and_address`); above them stand the two bits of
`parityBits`, each at its place. -/
theorem pidCarriesParityOfAddress : Obligations.PidCarriesParityOfAddress := by
  intro x
  refine ⟨fun j hj => ?_, ?_, ?_, pid_pid x⟩
  · rw [← getLsbD_and_address (pid x) hj, pid_and_address, getLsbD_and_address x hj]
  · simp [pid, parityBits]
  · simp [pid, parityBits]

end Sys2Proof.Machine
end

section
/-! PROOF. O20 to O24: the ring buffer as a queue of at most seven frames, oldest first, and the error byte
(42_ringbuffer_errors.md). -/

namespace Sys2Proof.Machine

/-! ## The two ends of the queue (42_ringbuffer_errors.md R180) -/

/-- What waits, oldest first: the slot at tail, then what waits from the next slot on. -/
theorem waiting_eq_cons {s : State} (h : s.head ≠ s.tail) :
    waiting s = slotFrame (slotAt s.tail s) :: waiting { s with tail := s.tail + 1 } := by
  have count : waitingCount s = waitingCount { s with tail := s.tail + 1 } + 1 := by
    dsimp only [waitingCount]
    omega
  have next (j : Nat) : s.tail + Fin.ofNat 8 (j + 1) = s.tail + 1 + Fin.ofNat 8 j := by
    simp only [Fin.ext_iff, Fin.val_add, Fin.val_ofNat, Fin.val_one]
    omega
  rw [waiting, count, List.range_succ_eq_map, List.map_cons, List.map_map]
  congr 1
  · simp
  · exact List.map_congr_left fun j _ => congrArg (fun k => slotFrame (slotAt k s)) (next j)

/-- Where a slot is left for the next frame, advancing head makes the frame in progress the youngest that
waits. -/
theorem waiting_advance_head {s : State} (room : s.head + 1 ≠ s.tail) :
    waiting { s with head := s.head + 1 } = waiting s ++ [slotFrame (slotAt s.head s)] := by
  have count : waitingCount { s with head := s.head + 1 } = waitingCount s + 1 := by
    dsimp only [waitingCount]
    omega
  have last : s.tail + Fin.ofNat 8 (waitingCount s) = s.head := by
    rw [waitingCount, Fin.ofNat_val_eq_self, add_sub_cancel]
  simp only [waiting, count, List.range_succ, List.map_append, List.map_singleton, last]
  rfl

theorem waiting_length_eq_seven_iff (s : State) : (waiting s).length = 7 ↔ s.head + 1 = s.tail := by
  rw [waiting_length, waitingCount]
  omega

theorem waiting_length_le_seven (s : State) : (waiting s).length ≤ 7 := by
  rw [waiting_length, waitingCount]
  omega

theorem waiting_length_lt_seven {s : State} (room : s.head + 1 ≠ s.tail) : (waiting s).length < 7 :=
  lt_of_le_of_ne (waiting_length_le_seven s) (mt (waiting_length_eq_seven_iff s).mp room)

/-! ## Pop (42_ringbuffer_errors.md R182) -/

theorem pop_of_empty {s : State} (h : s.head = s.tail) :
    pop s = (none, { s with irqEnabled := true }) :=
  if_neg (not_not_intro h.symm)

theorem pop_of_waiting {s : State} (h : s.head ≠ s.tail) :
    pop s = (some (slotFrame (slotAt s.tail s)), { s with irqEnabled := true, tail := s.tail + 1 }) :=
  if_pos h.symm

theorem head_eq_tail_iff_waiting_nil (s : State) : s.head = s.tail ↔ waiting s = [] := by
  rw [← waitingCount_eq_zero, ← waiting_length, List.length_eq_zero_iff]

/-- Settles O21: Pop's two cases, the second over the queue's front end (`waiting_eq_cons`). -/
theorem popTakesOldestWaiting : Obligations.PopTakesOldestWaiting := by
  intro s
  refine ⟨head_eq_tail_iff_waiting_nil s, pop_of_empty, fun h => ⟨_, pop_of_waiting h, ?_⟩⟩
  rw [pop_of_waiting h]
  exact waiting_eq_cons h

/-- Pop's answer is the first of the frames that wait. -/
theorem pop_fst (s : State) : (pop s).1 = (waiting s).head? := by
  by_cases h : s.head = s.tail
  · rw [pop_of_empty h, (head_eq_tail_iff_waiting_nil s).mp h, List.head?_nil]
  · rw [pop_of_waiting h, waiting_eq_cons h, List.head?_cons]

/-- Settles O22: Pop answers from the frames that wait (`pop_fst`), and the slot at head is none of them. -/
theorem popIgnoresSlotInProgress : Obligations.PopIgnoresSlotInProgress := by
  intro s f
  rw [pop_fst, pop_fst, waiting_setSlot_head]

/-! ## HandOff (42_ringbuffer_errors.md R181, R186) -/

/-- Settles O20: the two cases of `handOff_cases`; `errMask .bufferOverrun` is the bit of D2. -/
theorem handOffDropsOldestOnCollision : Obligations.HandOffDropsOldestOnCollision := by
  intro s
  rcases handOff_cases s with ⟨room, e⟩ | ⟨full, e⟩
  · exact ⟨fun _ => e, fun full => absurd full room⟩
  · exact ⟨fun room => absurd full room, fun _ => e⟩

/-- HandOff keeps the six youngest frames that wait and queues the frame in progress behind them: the
oldest frame falls out exactly if seven wait already. -/
theorem waiting_handOff (s : State) :
    waiting (handOff s) = (waiting s).rtake 6 ++ [slotFrame (slotAt s.head s)] := by
  rcases handOff_cases s with ⟨room, e⟩ | ⟨full, e⟩ <;> rw [e]
  · have atMostSix : (waiting s).length - 6 = 0 :=
      Nat.sub_eq_zero_of_le (Nat.le_of_lt_succ (waiting_length_lt_seven room))
    rw [waiting_advance_head room, List.rtake, atMostSix, List.drop_zero]
  · have seven := (waiting_length_eq_seven_iff s).mpr full
    have nonempty : s.head ≠ s.tail := by omega
    have advanced : waiting { s with head := s.head + 1, tail := s.tail + 1 } =
        waiting { s with tail := s.tail + 1 } ++ [slotFrame (slotAt s.head s)] :=
      waiting_advance_head (s := { s with tail := s.tail + 1 }) (by dsimp only; omega)
    calc waiting { raise .bufferOverrun s with head := s.head + 1, tail := s.tail + 1 }
        = waiting { s with tail := s.tail + 1 } ++ [slotFrame (slotAt s.head s)] := advanced
      _ = (waiting s).rtake 6 ++ [slotFrame (slotAt s.head s)] := by
        rw [List.rtake, seven, waiting_eq_cons nonempty, List.drop_one, List.tail_cons]

theorem errFlags_handOff (s : State) : (handOff s).errFlags =
    if (waiting s).length < 7 then s.errFlags else s.errFlags ||| errMask .bufferOverrun := by
  rcases handOff_cases s with ⟨room, e⟩ | ⟨full, e⟩ <;> rw [e]
  · exact (if_pos (waiting_length_lt_seven room)).symm
  · exact (if_neg ((waiting_length_eq_seven_iff s).mpr full).not_lt).symm

/-! ## Frames produced with no pop (42_ringbuffer_errors.md R186) -/

theorem waiting_produce (f : Slot) (s : State) :
    waiting (produce f s) = (waiting s).rtake 6 ++ [slotFrame f] := by
  rw [produce, waiting_handOff, waiting_setSlot_head, setSlot_head, slotAt_setSlot_self]

theorem errFlags_produce (f : Slot) (s : State) : (produce f s).errFlags =
    if (waiting s).length < 7 then s.errFlags else s.errFlags ||| errMask .bufferOverrun := by
  rw [produce, errFlags_handOff, waiting_setSlot_head, setSlot_errFlags]

theorem produceAll_concat (fs : List Slot) (f : Slot) (s : State) :
    produceAll (fs ++ [f]) s = produce f (produceAll fs s) :=
  List.foldl_concat ..

theorem rtake_rtake {α : Type} (l : List α) (m n : Nat) :
    (l.rtake m).rtake n = l.rtake (min n m) := by
  simp only [List.rtake_eq_reverse_take_reverse, List.reverse_reverse, List.take_take]

/-- Production without a pop queues the frames and keeps the last seven of all that ever waited. -/
theorem waiting_produceAll (fs : List Slot) (s : State) :
    waiting (produceAll fs s) = (waiting s ++ fs.map slotFrame).rtake 7 := by
  induction fs using List.reverseRecOn with
  | nil =>
    have fits : (waiting s).length - 7 = 0 := Nat.sub_eq_zero_of_le (waiting_length_le_seven s)
    rw [List.map_nil, List.append_nil, List.rtake, fits]
    rfl
  | append_singleton fs f ih =>
    rw [produceAll_concat, waiting_produce, ih, rtake_rtake, List.map_append, List.map_singleton,
      ← List.append_assoc, List.rtake_concat_succ]
    rfl

theorem waiting_produceAll_length (fs : List Slot) (s : State) :
    (waiting (produceAll fs s)).length = min 7 ((waiting s).length + fs.length) := by
  rw [waiting_produceAll, List.rtake, List.length_drop, List.length_append, List.length_map]
  omega

/-- The overrun bit comes with the first frame that seven others wait before, and stays. -/
theorem errFlags_produceAll (fs : List Slot) (s : State) : (produceAll fs s).errFlags =
    if (waiting s).length + fs.length ≤ 7 then s.errFlags
    else s.errFlags ||| errMask .bufferOverrun := by
  induction fs using List.reverseRecOn with
  | nil => exact (if_pos (waiting_length_le_seven s)).symm
  | append_singleton fs f ih =>
    rw [produceAll_concat, errFlags_produce, waiting_produceAll_length, ih, List.length_append,
      List.length_singleton]
    rcases Nat.lt_trichotomy ((waiting s).length + fs.length) 7 with room | full | overrun
    · rw [if_pos (by omega), if_pos (by omega), if_pos (by omega)]
    · rw [if_neg (by omega), if_pos (by omega), if_neg (by omega)]
    · rw [if_neg (by omega), if_neg (by omega), if_neg (by omega), BitVec.or_assoc, BitVec.or_self]

/-- Settles O23: what waits and the overrun bit after any production, from a buffer where nothing waits. -/
theorem ringKeepsSevenMostRecent : Obligations.RingKeepsSevenMostRecent := by
  intro s fs h
  have empty := (head_eq_tail_iff_waiting_nil s).mp h
  refine ⟨?_, ?_⟩
  · rw [waiting_produceAll, empty, List.nil_append, List.rtake, List.length_map, List.map_drop]
  · rw [errFlags_produceAll, empty, List.length_nil, Nat.zero_add]
    rfl

/-! ## The error byte (42_ringbuffer_errors.md R183, R184) -/

theorem raise_raise (k : RxError) (s : State) : raise k (raise k s) = raise k s := by
  simp only [raise, BitVec.or_assoc, BitVec.or_self]

/-- Settles O24: raising twice is `raise_raise`; reading and the masks are the definitions' own values. -/
theorem errorByteIsStickyUntilRead : Obligations.ErrorByteIsStickyUntilRead := by
  intro s
  exact ⟨fun k => ⟨rfl, raise_raise k s⟩, rfl, by decide⟩

end Sys2Proof.Machine
end

section
/-! PROOF. O18, O30, O31: the levels a transmission drives (43_transmitter.md), and that the Receiver reads a
transmitted byte back. -/

namespace Sys2Proof.Machine

/-! ## The waveform of a transmission (43_transmitter.md R202, R203) -/

/-- Bytes sent after a first one follow it on the wire with no gap, and the line is high at their end. -/
theorem txBytes_eq (b : Byte) (bs : List Byte) (s : State) :
    bs.foldl (fun s d => txByte d s) (txByte b s) =
      { s with txTrace := s.txTrace ++ wireBytes (b :: bs), txLevel := .high } := by
  induction bs generalizing b s with
  | nil => simp [txByte_eq, wireBytes]
  | cons d ds ih =>
    rw [List.foldl_cons, ih, txByte_eq, wireBytes_cons b]
    simp only [List.append_assoc]

/-- The levels of a transmission whose bytes after the sync byte are these: break, delimiter, the bytes
(43_transmitter.md R202, R203). `transmission_eq` ties it to the model. -/
def transmissionLevels (bytes : List Byte) : List Level :=
  List.replicate 13 .low ++ [.high] ++ wireBytes (syncValue :: bytes)

theorem transmissionLevels_length (bytes : List Byte) :
    (transmissionLevels bytes).length = 24 + 10 * bytes.length := by
  simp only [transmissionLevels, List.length_append, List.length_replicate, wireBytes_length,
    List.length_cons, List.length_nil]
  omega

/-- Break, sync and bytes inside the critical section: the trace grows by their levels, the line ends high
and the mask open (D27), and nothing else is written. -/
theorem transmission_eq (bytes : List Byte) (s : State) :
    enableIrq (bytes.foldl (fun s d => txByte d s) (txBreakSync (disableIrq s))) =
      { s with
        txTrace := s.txTrace ++ transmissionLevels bytes, txLevel := .high, irqEnabled := true } := by
  rw [txBreakSync, txBytes_eq, drive_drive]
  simp only [enableIrq, disableIrq, transmissionLevels, List.append_assoc]
  rfl

theorem transmitHeader_eq (addr : Byte) (s : State) :
    transmitHeader addr s =
      { s with
        txTrace := s.txTrace ++ transmissionLevels [pid (addr &&& 0x3F#8)]
        txLevel := .high, irqEnabled := true } :=
  transmission_eq [pid (addr &&& 0x3F#8)] s

/-- The bytes of a full frame after its sync byte (43_transmitter.md R202). -/
def frameBytes (addr : Byte) (data : List Byte) : List Byte :=
  pid (addr &&& 0x3F#8) :: data ++ [txChecksum (pid (addr &&& 0x3F#8) :: data)]

theorem frameBytes_length (addr : Byte) (data : List Byte) :
    (frameBytes addr data).length = data.length + 2 := by simp [frameBytes]

theorem transmitFrame_eq (addr : Byte) (data : List Byte) (s : State) :
    transmitFrame addr data s =
      { s with
        txTrace := s.txTrace ++ transmissionLevels (frameBytes addr data)
        txLevel := .high, irqEnabled := true } := by
  rw [← transmission_eq]
  simp only [transmitFrame, frameBytes, List.foldl_append, List.foldl_cons, List.foldl_nil]

/-- Settles O30: the bytes after the sync byte are `frameBytes`. -/
theorem transmitFrameWaveform : Obligations.TransmitFrameWaveform := by
  intro addr data s
  refine ⟨_, transmitFrame_eq addr data s, rfl, ?_⟩
  rw [transmissionLevels_length, frameBytes_length]
  omega

/-- Settles O31: the one byte after the sync byte is the PID. -/
theorem transmitHeaderWaveform : Obligations.TransmitHeaderWaveform :=
  fun addr s => ⟨_, transmitHeader_eq addr s, rfl, transmissionLevels_length _⟩

/-! ## One byte, driven and read back (40_receiver.md R129) -/

/-- Settles O18: the ten levels leave the byte in the accumulator at its stop bit (`feed_wireByte`), where
O13 appends it to the frame in progress. -/
theorem receiverReadsTransmittedByte : Obligations.ReceiverReadsTransmittedByte := by
  intro s u b n hi hm hb hc hn hle
  refine ⟨by rw [txByte_eq], ?_⟩
  obtain ⟨f, length, appended, -, goesOn, -⟩ :=
    frameByteIsAppended { s with acc := b, bitPos := 9 } .edge .edge n hi hm rfl hc hn (by omega)
  exact ⟨f, length, appended, (feed_wireByte hi hm hb b .edge).trans (goesOn rfl (by omega))⟩

end Sys2Proof.Machine
end

section
/-! PROOF. O59: of all steps only the unit of a transmission drives the bus, and only the dispatch of a `t`
line leaves a transmission to come. -/

namespace Sys2Proof.Machine

/-! ## What a step is to the bus -/

/-- The bus is not driven, and a transmission to come was to come before. -/
def BusQuiet (s t : State) : Prop :=
  t.txTrace = s.txTrace ∧
    ∀ addr data, t.task = .transmitting addr data → s.task = .transmitting addr data

/-- The transmission to come is made: one whole frame of its data bytes, and the CR is to follow. -/
def SendsFrame (s t : State) : Prop :=
  ∃ addr data, s.task = .transmitting addr data ∧ t.task = .replying ∧
    t.txTrace.length = s.txTrace.length + 44 + 10 * data.length

/-- The bus is not driven, and a `t` line of a connected session has left its transmission to come. -/
def DispatchesTransmit (s t : State) : Prop :=
  t.txTrace = s.txTrace ∧ ∃ addr data, t.task = .transmitting addr data ∧ s.connected = true ∧
    (∃ a b c d, decode (lineOf s) = .ok (.transmit a b c d)) ∧ 1 ≤ data.length ∧ data.length ≤ 8

theorem BusQuiet.of_task_eq {s t : State} (htrace : t.txTrace = s.txTrace) (htask : t.task = s.task) :
    BusQuiet s t :=
  ⟨htrace, fun _ _ h => htask.symm.trans h⟩

theorem BusQuiet.of_task_other {s t : State} (htrace : t.txTrace = s.txTrace)
    (htask : ∀ addr data, t.task ≠ .transmitting addr data) : BusQuiet s t :=
  ⟨htrace, fun addr data h => absurd h (htask addr data)⟩

theorem BusQuiet.refl (s : State) : BusQuiet s s := .of_task_eq rfl rfl

/-! ## A host byte -/

theorem MainWrite.txTrace {s t : State} (h : MainWrite s t) : t.txTrace = s.txTrace := by
  obtain ⟨_, rfl⟩ := h
  rfl

@[simp] theorem endLine_task (s : State) : (endLine s).task = s.task := by
  rcases endLine_cases s with ⟨_, h⟩ | ⟨_, h⟩ <;> rw [h]
  rfl

/-- Of the commands only a `t` of a connected session leaves a transmission to come. -/
theorem exec_bus {i : Instr} {s t : State} (hi : decode (lineOf s) = .ok i) (ht : exec i s = .next t) :
    BusQuiet s t ∨ DispatchesTransmit s t := by
  have trace := (mainWrite_exec ht).txTrace
  obtain ⟨_, _, _, _, _, _, task, u, rfl, _, hexec⟩ := exec_cases i s
  obtain ⟨same, _, e⟩ | ⟨same, e⟩ | ⟨addr, data, sends, hc, _, ⟨a, b, c, d, rfl⟩, h1, h8, e⟩ := hexec <;>
    cases ht.symm.trans e
  · exact .inl (.of_task_eq trace same)
  · exact .inl (.of_task_eq trace same)
  · exact .inr ⟨trace, addr, data, sends, hc, ⟨a, b, c, d, hi⟩, h1, h8⟩

theorem onTerminator_bus {s t : State} (h : onTerminator s = .next t) :
    BusQuiet s t ∨ DispatchesTransmit s t := by
  have trace := (mainWrite_onTerminator h).txTrace
  obtain ⟨_, e⟩ | ⟨_, _, e⟩ | ⟨_, _, i, u, hi, hu, e⟩ := onTerminator_cases s <;> cases h.symm.trans e
  · exact .inl (.of_task_eq rfl rfl)
  · exact .inl (.refl s)
  · obtain ⟨_, quiet⟩ | ⟨_, addr, data, sends, hc, line, length⟩ :=
      exec_bus (s := terminateLine s) (by rwa [lineOf_terminateLine]) hu
    · exact .inl ⟨trace, by rwa [endLine_task]⟩
    · rw [lineOf_terminateLine] at line
      exact .inr ⟨trace, addr, data, (endLine_task u).trans sends, hc, line, length⟩

theorem onHostByte_bus {c : Byte} {s t : State} (h : onHostByte c s = .next t) :
    BusQuiet s t ∨ DispatchesTransmit s t := by
  obtain ⟨_, e⟩ | ⟨_, e⟩ | ⟨_, e⟩ := onHostByte_cases c s
  · cases h.symm.trans e
    exact .inl (.refl s)
  · exact onTerminator_bus (e.symm.trans h)
  · cases h.symm.trans e
    obtain ⟨_, _, _, stored⟩ := onChar_touches c s
    rw [stored]
    exact .inl (.of_task_eq rfl rfl)

/-- The byte taken from the RX queue is nothing to the bus; what it completes may be. -/
theorem serveHost_bus {s t : State} (h : serveHost s = .next t) :
    BusQuiet s t ∨ DispatchesTransmit s t := by
  obtain e | ⟨c, rest, _, e⟩ := serveHost_cases s
  · cases h.symm.trans e
    exact .inl (.refl s)
  · exact onHostByte_bus (s := { s with serialRx := rest }) (e.symm.trans h)

/-! ## The other units -/

theorem sendFrame_sendsFrame {s : State} {addr : Byte} {data : List Byte}
    (ht : s.task = .transmitting addr data) : SendsFrame s (sendFrame addr data s) := by
  refine ⟨addr, data, ht, rfl, ?_⟩
  rw [sendFrame, transmitFrame_eq, List.length_append, transmissionLevels_length, frameBytes_length]
  omega

theorem forwardFrame_busQuiet (f : List Byte) (s : State) : BusQuiet s (forwardFrame f s) := by
  rcases forwardFrame_cases f s with h | h <;> rw [h] <;> exact .of_task_other rfl nofun

theorem proceed_bus (s : State) : BusQuiet s (proceed s) ∨ SendsFrame s (proceed s) := by
  obtain ⟨_, e⟩ | ⟨_, ⟨addr, data, ht, e⟩ | ⟨_, e⟩ | ⟨f, _, e⟩⟩ := proceed_cases s <;> rw [e]
  · exact .inl (.refl s)
  · exact .inr (sendFrame_sendsFrame ht)
  · exact .inl (.of_task_other rfl nofun)
  · exact .inl (forwardFrame_busQuiet f s)

theorem tick_busQuiet (l : Level) (w1 w2 : Wait) (s : State) : BusQuiet s (tick l w1 w2 s) := by
  obtain ⟨_, _, _, _, _, _, _, _, _, _, h⟩ := tick_touches l w1 w2 s
  rw [h]
  exact .of_task_eq rfl rfl

theorem takeFrame_busQuiet (s : State) : BusQuiet s (takeFrame s) := by
  rcases takeFrame_cases s with ⟨_, h⟩ | ⟨_, h⟩ <;> rw [h]
  · exact .of_task_eq rfl rfl
  · exact .of_task_other rfl nofun

theorem bootStep_busQuiet (s : State) : BusQuiet s (bootStep s) := by
  unfold bootStep
  split <;> exact .of_task_eq rfl rfl

/-! ## Every step -/

/-- Everything a step can be to the bus. -/
def BusStep (s t : State) : Prop := BusQuiet s t ∨ SendsFrame s t ∨ DispatchesTransmit s t

theorem runEvent_busStep {e : Event} {s t : State} (h : runEvent e s = .next t) : BusStep s t := by
  cases e with
  | tick l w1 w2 => cases h; exact .inl (tick_busQuiet l w1 w2 s)
  | hostSends b => cases h; exact .inl (.of_task_eq rfl rfl)
  | txQueue room => cases h; exact .inl (.of_task_eq rfl rfl)
  | serveHost =>
    obtain ⟨_, _, hu⟩ | rfl := whenFree_next h
    · exact (serveHost_bus hu).imp_right .inr
    · exact .inl (.refl t)
  | forward =>
    obtain ⟨_, _, hu⟩ | rfl := whenFree_next (unit := fun s => .next (takeFrame s)) h
    · cases hu; exact .inl (takeFrame_busQuiet s)
    · exact .inl (.refl t)
  | readErrors =>
    obtain ⟨_, _, hu⟩ | rfl := whenFree_next (unit := fun s => .next (readErrors s)) h
    · cases hu; exact .inl (.of_task_eq rfl rfl)
    · exact .inl (.refl t)
  | proceed => cases h; exact (proceed_bus s).imp_right .inl

/-- Drawing the next event is nothing to the bus. -/
theorem step_busStep {s t : State} (h : step s = .next t) : BusStep s t := by
  obtain ⟨_, e⟩ | ⟨_, rest, k, e, u, rfl, h'⟩ := step_cases s
  · cases h.symm.trans e
    exact .inl (bootStep_busQuiet s)
  · exact runEvent_busStep (s := { s with schedule := rest, draws := k }) (h'.symm.trans h)

/-- Settles O59: a quiet step does neither, the unit of a transmission only drives the bus, and the dispatch
of a `t` line only leaves a transmission to come. -/
theorem onlyTransmitCommandDrivesBus : Obligations.OnlyTransmitCommandDrivesBus := by
  intro s t h
  obtain ⟨trace, quiet⟩ | ⟨addr, data, ht, replying, length⟩ | ⟨trace, _, _, sends, hc, line, length⟩ :=
    step_busStep h
  · exact ⟨fun driven => absurd trace driven, fun addr data ht new => absurd (quiet addr data ht) new⟩
  · exact ⟨fun _ => ⟨addr, data, ht, length⟩,
      fun _ _ ht' _ => MainTask.noConfusion (replying.symm.trans ht')⟩
  · refine ⟨fun driven => absurd trace driven, fun addr data ht _ => ?_⟩
    cases sends.symm.trans ht
    exact ⟨hc, line, length⟩

end Sys2Proof.Machine
end

section
/-! PROOF. O40, and what the operands of a command are: the characters `Char` reads, and the numbers their
digits spell (44_command_protocol.md R224, 30_encoding.md R86 to R88). -/

namespace Sys2Proof.Machine

/-! ## Char (44_command_protocol.md R224) -/

theorem char_of_getElem? {payload : List Byte} {i : Nat} {c : Byte} (h : payload[i]? = some c)
    (draws : Nat) : char payload draws (i + 1) = c := by
  obtain ⟨hi, rfl⟩ := List.getElem?_eq_some_iff.mp h
  rw [char, if_pos (Nat.succ_lt_succ hi), Nat.add_sub_cancel, List.getD_eq_getElem _ _ hi]

theorem char_at_end (payload : List Byte) (draws : Nat) :
    char payload draws (payload.length + 1) = 0x00#8 :=
  (if_neg (Nat.lt_irrefl _)).trans (if_pos rfl)

theorem char_past_end (payload : List Byte) (draws i : Nat) :
    char payload draws (payload.length + 2 + i) = Config.staleChar (draws + i) := by
  rw [char, if_neg (by omega), if_neg (by omega), Nat.add_sub_cancel_left]

/-- Settles O40: the three branches of `char`, below L, at L and past it. -/
theorem charReadsLineThenNulThenDraws : Obligations.CharReadsLineThenNulThenDraws :=
  fun payload draws i => ⟨fun _ h => char_of_getElem? h draws, char_at_end payload draws,
    char_past_end payload draws i⟩

/-! ## The digits of `S` and `Z` (30_encoding.md R87, R88) -/

/-- The characters an `S` line accepts (30_encoding.md R87). -/
def bitrateDigits : List Byte := [0x30#8, 0x31#8, 0x32#8, 0x33#8, 0x34#8, 0x35#8, 0x36#8, 0x38#8]

theorem mem_bitrateDigits {c : Byte} :
    c ∈ bitrateDigits ↔ 0x30 ≤ c.toNat ∧ c.toNat ≤ 0x38 ∧ c.toNat ≠ 0x37 := by
  simp only [bitrateDigits, List.mem_cons, List.not_mem_nil, or_false, BitVec.toNat_eq,
    BitVec.toNat_ofNat]
  omega

theorem bitrateDigit_of_mem {c : Byte} (h : c ∈ bitrateDigits) :
    bitrateDigit c = some (c.toNat - 0x30) := if_pos (mem_bitrateDigits.mp h)

theorem bitrateDigit_of_not_mem {c : Byte} (h : c ∉ bitrateDigits) : bitrateDigit c = none :=
  if_neg (mt mem_bitrateDigits.mpr h)

theorem timestampDigit_other {c : Byte} (h0 : c ≠ 0x30#8) (h1 : c ≠ 0x31#8) :
    timestampDigit c = none := (if_neg h0).trans (if_neg h1)

/-! ## The fields of a `t` line (30_encoding.md R86) -/

/-- The low six bits of an identifier are its value modulo 64. -/
theorem addressOf_ofNat (n : Nat) : addressOf (BitVec.ofNat 12 n) = BitVec.ofNat 8 (n % 64) := by
  have low : n % 256 &&& 63 = n % 256 % 64 := Nat.and_two_pow_sub_one_eq_mod (n % 256) 6
  apply BitVec.eq_of_toNat_eq
  simp [addressOf, low]
  omega

/-- The data digits of a line that has them in pairs. -/
def pairDigits (pairs : List (Byte × Byte)) : List Byte := pairs.flatMap fun p => [p.1, p.2]

theorem pairDigits_length (pairs : List (Byte × Byte)) :
    (pairDigits pairs).length = 2 * pairs.length := by
  simp [pairDigits, List.length_flatMap, Nat.mul_comm]

theorem pairDigits_getElem? (pairs : List (Byte × Byte)) (i : Nat) :
    (pairDigits pairs)[2 * i]? = pairs[i]?.map Prod.fst ∧
      (pairDigits pairs)[2 * i + 1]? = pairs[i]?.map Prod.snd := by
  induction pairs generalizing i with
  | nil => exact ⟨rfl, rfl⟩
  | cons p ps ih =>
    cases i with
    | zero => exact ⟨rfl, rfl⟩
    | succ i => exact ih i

/-- The data digits stand from position 5 on. -/
theorem char_dataDigit (c1 c2 c3 c4 : Byte) {digits : List Byte} {i : Nat} {b : Byte}
    (h : digits[i]? = some b) (ignored : List Byte) (draws : Nat) :
    char (transmitPayload [c1, c2, c3] (some c4) digits ignored) draws (5 + i) = b := by
  have inside := (List.getElem?_eq_some_iff.mp h).1
  rw [show 5 + i = i + 4 + 1 by omega]
  refine char_of_getElem? ?_ draws
  simpa [transmitPayload, List.getElem?_append_left inside] using h

/-- The data bytes of a line that has all its data digits are those of the pairs. -/
theorem dataOf_pairDigits (c1 c2 c3 c4 : Byte) (pairs : List (Byte × Byte)) (ignored : List Byte)
    (draws : Nat) :
    dataOf (transmitPayload [c1, c2, c3] (some c4) (pairDigits pairs) ignored) draws pairs.length =
      pairs.map fun p => byteOf p.1 p.2 := by
  refine List.ext_getElem (by simp [dataOf]) fun i hi _ => ?_
  replace hi : i < pairs.length := by simpa [dataOf] using hi
  obtain ⟨high, low⟩ := pairDigits_getElem? pairs i
  rw [List.getElem?_eq_getElem hi] at high low
  have next : 6 + 2 * i = 5 + (2 * i + 1) := by omega
  simp only [dataOf, List.getElem_map, List.getElem_range, next, char_dataDigit c1 c2 c3 c4 high,
    char_dataDigit c1 c2 c3 c4 low]

end Sys2Proof.Machine
end

section
/-! PROOF. O32 to O39 and O41 to O43: what each command does (44_command_protocol.md R225 to R234), and what
every command leaves unchanged. -/

namespace Sys2Proof.Machine

/-! ## The session commands, an equation per case -/

section
variable {s : State}

theorem exec_openSession_nil :
    exec (.openSession []) s = .next (emit [0x0D#8] { s with connected := true }) := rfl

theorem exec_openSession_payload {p : List Byte} (h : p ≠ []) :
    exec (.openSession p) s = .next (emit [0x07#8] s) := by
  cases p with
  | nil => exact absurd rfl h
  | cons => rfl

theorem exec_closeSession (p : List Byte) :
    exec (.closeSession p) s = .next (emit [0x0D#8] { s with connected := false }) := rfl

theorem exec_selectBitrate_connected (hc : s.connected = true) (digit : Option Byte) (p : List Byte) :
    exec (.selectBitrate digit p) s = .next (emit [0x07#8] s) := if_pos hc

theorem exec_selectBitrate_known (hc : s.connected = false) {digit : Option Byte} {p : List Byte} {d : Nat}
    (hd : bitrateDigit (char (digit.toList ++ p) s.draws 1) = some d) :
    exec (.selectBitrate digit p) s = .next (emit [0x0D#8] { s with bitrateSel := some d }) := by
  simp only [exec, execSelectBitrate, hc, hd]
  rfl

theorem exec_selectBitrate_unknown (hc : s.connected = false) {digit : Option Byte} {p : List Byte}
    (hd : bitrateDigit (char (digit.toList ++ p) s.draws 1) = none) :
    exec (.selectBitrate digit p) s = .next (emit [0x07#8] s) := by
  simp only [exec, execSelectBitrate, hc, hd]
  rfl

theorem exec_customBitrate_connected (hc : s.connected = true) (p : List Byte) :
    exec (.customBitrate p) s = .next (emit [0x07#8] s) := if_pos hc

theorem exec_customBitrate_unconnected (hc : s.connected = false) (p : List Byte) :
    exec (.customBitrate p) s = .next (emit [0x0D#8] s) := if_neg (by simp [hc])

theorem exec_setTimestamp_known {digit : Option Byte} {p : List Byte} {b : Bool}
    (hl : (digit.toList ++ p).length = 1)
    (hd : timestampDigit (char (digit.toList ++ p) s.draws 1) = some b) :
    exec (.setTimestamp digit p) s = .next (emit [0x0D#8] { s with timestamp := b }) := by
  simp only [exec, execSetTimestamp, hl, hd]
  rfl

theorem exec_setTimestamp_unknown {digit : Option Byte} {p : List Byte}
    (hl : (digit.toList ++ p).length = 1)
    (hd : timestampDigit (char (digit.toList ++ p) s.draws 1) = none) :
    exec (.setTimestamp digit p) s = .next (emit [0x07#8] s) := by
  simp only [exec, execSetTimestamp, hl, hd]
  rfl

theorem exec_setTimestamp_badLength {digit : Option Byte} {p : List Byte}
    (hl : (digit.toList ++ p).length ≠ 1) :
    exec (.setTimestamp digit p) s = .next (emit [0x07#8] s) :=
  if_neg fun h => hl (Nat.succ.inj h)

end

/-- Settles O32: each of the three arms emits its string. -/
theorem versionCommandsReplyTheirStrings : Obligations.VersionCommandsReplyTheirStrings :=
  fun _ _ => ⟨rfl, rfl, rfl⟩

/-- Settles O33: the two cases of the payload. -/
theorem openConnectsWithoutPayload : Obligations.OpenConnectsWithoutPayload :=
  fun _ _ => ⟨fun h => h ▸ exec_openSession_nil, exec_openSession_payload⟩

/-- Settles O34: the arm reads neither the payload nor the session. -/
theorem closeDisconnects : Obligations.CloseDisconnects := fun p _ => exec_closeSession p

/-- Settles O35: the characters listed are those `bitrateDigit` accepts, and a missing digit is read as
NUL. -/
theorem selectBitrateRecordsDigit : Obligations.SelectBitrateRecordsDigit := by
  refine fun c rest s => ⟨exec_selectBitrate_connected, fun hc => ⟨fun h => ?_, fun h => ?_, ?_⟩⟩
  · exact exec_selectBitrate_known hc (bitrateDigit_of_mem (c := c) h)
  · exact exec_selectBitrate_unknown hc (bitrateDigit_of_not_mem (c := c) h)
  · exact exec_selectBitrate_unknown hc rfl

/-- Settles O36: the two cases of the session. -/
theorem customBitrateIsInert : Obligations.CustomBitrateIsInert := fun p _ =>
  ⟨(exec_customBitrate_connected · p), (exec_customBitrate_unconnected · p)⟩

/-- Settles O37: of the lines of two characters `timestampDigit` accepts two, and no other length is
accepted. -/
theorem timestampTakesDigit : Obligations.TimestampTakesDigit := by
  refine fun c extra s => ⟨exec_setTimestamp_known rfl rfl, exec_setTimestamp_known rfl rfl,
    fun h0 h1 => ?_, fun h => ?_, exec_setTimestamp_badLength (by simp)⟩
  · exact exec_setTimestamp_unknown rfl (timestampDigit_other h0 h1)
  · exact exec_setTimestamp_badLength (by simpa using h)

/-- Settles O38: the arm of any other command byte replies BEL and does nothing else. -/
theorem unknownCommandGetsBel : Obligations.UnknownCommandGetsBel := fun _ _ _ => rfl

/-! ## The transmit command (44_command_protocol.md R233) -/

theorem exec_transmit_unconnected {s : State} (hc : s.connected = false) (ids : List Byte)
    (len : Option Byte) (data ignored : List Byte) : exec (.transmit ids len data ignored) s = .next s :=
  if_neg (by simp [hc])

section
variable {s : State} (hc : s.connected = true) (ids : List Byte) (len : Option Byte)
  (data ignored : List Byte) {c : Nat → Byte}
  (hchar : c = char (transmitPayload ids len data ignored) s.draws)
include hc hchar

/-- A length of 1 to 8 leaves the transmission to the next unit (20_memory.md R69). -/
theorem exec_transmit_sends (hn : dlcValid (hexval (c 4)) = true) :
    exec (.transmit ids len data ignored) s =
      .next (commandWrite s.connected (idOf (c 1) (c 2) (c 3)) (BitVec.ofNat 4 (hexval (c 4)))
        s.timestamp s.bitrateSel
        (staleReads (transmitPayload ids len data ignored) (4 + 2 * hexval (c 4)))
        (.transmitting (addressOf (idOf (c 1) (c 2) (c 3)))
          (dataOf (transmitPayload ids len data ignored) s.draws (hexval (c 4)))) s) := by
  subst hchar
  simp only [exec, execTransmit, hc, hn, if_true, commandWrite]

/-- Any other length sends and replies nothing. -/
theorem exec_transmit_silent (hn : dlcValid (hexval (c 4)) = false) :
    exec (.transmit ids len data ignored) s =
      .next (commandWrite s.connected (idOf (c 1) (c 2) (c 3)) (BitVec.ofNat 4 (hexval (c 4)))
        s.timestamp s.bitrateSel (staleReads (transmitPayload ids len data ignored) 4) s.task s) := by
  subst hchar
  simp only [exec, execTransmit, hc, hn, if_true, commandWrite, Bool.false_eq_true, if_false]

end

theorem dlcValid_eq_false {n : Nat} (h : n = 0 ∨ n > 8) : dlcValid n = false := by
  rw [← Bool.not_eq_true, dlcValid_iff]
  omega

theorem staleReads_eq_zero {payload : List Byte} {last : Nat} (h : last ≤ payload.length + 1) :
    staleReads payload last = 0 := Nat.sub_eq_zero_of_le h

/-- Settles O41: the two cases of the length, the identifier's low six bits read by `addressOf_ofNat`. -/
theorem transmitCommandOnAnyLine : Obligations.TransmitCommandOnAnyLine := by
  rintro ids data ignored len s c n hc rfl rfl
  refine ⟨fun h1 h8 => ?_, fun h => ?_⟩
  · have sends := exec_transmit_sends hc ids len data ignored rfl ((dlcValid_iff _).mpr ⟨h1, h8⟩)
    rw [idOf, addressOf_ofNat] at sends
    exact ⟨_, sends⟩
  · exact ⟨_, exec_transmit_silent hc ids len data ignored rfl (dlcValid_eq_false h)⟩

/-- Settles O42: a line that reaches its length digit uses no draw, and a missing length digit is read as
NUL. -/
theorem transmitCommandIsSilentOnBadLength : Obligations.TransmitCommandIsSilentOnBadLength := by
  refine fun c1 c2 c3 c4 data ignored s => ⟨fun hc ids len => exec_transmit_unconnected hc ids len _ _,
    fun hc hn => ?_, fun hc => ?_⟩
  · have silent := exec_transmit_silent hc [c1, c2, c3] (some c4) data ignored rfl (dlcValid_eq_false hn)
    rwa [staleReads_eq_zero (by simp [transmitPayload])] at silent
  · have nul : char (transmitPayload [c1, c2, c3] none [] []) s.draws 4 = 0x00#8 := char_at_end _ _
    have silent := exec_transmit_silent hc [c1, c2, c3] none [] [] rfl (by rw [nul]; rfl)
    rwa [nul] at silent

/-- The dispatch of a complete line: no draw is used, and the data bytes are those of the digit pairs. -/
theorem exec_transmit_complete {s : State} (hc : s.connected = true) (c1 c2 c3 c4 : Byte)
    {pairs : List (Byte × Byte)} (hn : hexval c4 = pairs.length) (h1 : 1 ≤ pairs.length)
    (h8 : pairs.length ≤ 8) (ignored : List Byte) :
    exec (.transmit [c1, c2, c3] (some c4) (pairDigits pairs) ignored) s =
      .next (commandWrite s.connected (idOf c1 c2 c3) (BitVec.ofNat 4 pairs.length) s.timestamp
        s.bitrateSel 0
        (.transmitting (addressOf (idOf c1 c2 c3)) (pairs.map fun p => byteOf p.1 p.2)) s) := by
  have valid : dlcValid (hexval c4) = true := (dlcValid_iff _).mpr (hn ▸ ⟨h1, h8⟩)
  have sends := exec_transmit_sends hc [c1, c2, c3] (some c4) (pairDigits pairs) ignored rfl valid
  have noDraw : staleReads (transmitPayload [c1, c2, c3] (some c4) (pairDigits pairs) ignored)
      (4 + 2 * pairs.length) = 0 :=
    staleReads_eq_zero (by simp [transmitPayload, pairDigits_length]; omega)
  rwa [show char _ s.draws 4 = c4 from rfl, hn, noDraw, dataOf_pairDigits] at sends

/-- The two units after the dispatch of a `t` line: its transmission, and its CR, which ends the line. -/
theorem proceed_proceed_transmitting {t : State} (hp : t.txPending = []) {addr : Byte} {data : List Byte}
    (ht : t.task = .transmitting addr data) :
    proceed (proceed t) =
      { emit [0x0D#8] { transmitFrame addr data t with task := .choosing } with lineLen := 0 } := by
  have sent : (sendFrame addr data t).txPending = [] := (transmitFrame_txPending addr data t).trans hp
  rw [proceed_transmitting hp ht, proceed_replying sent rfl, sendFrame]
  generalize transmitFrame addr data t = u
  rfl

/-- Settles O39: `exec_transmit_complete` is the dispatch, and the two units after it are those of its
task. -/
theorem transmitCommandSendsFrame : Obligations.TransmitCommandSendsFrame := by
  intro c1 c2 c3 c4 pairs ignored s hc hn h1 h8
  obtain ⟨t, dispatched⟩ := exec_next (.transmit [c1, c2, c3] (some c4) (pairDigits pairs) ignored) s
  have ht := Host.Outcome.next.inj
    (dispatched.symm.trans (exec_transmit_complete hc c1 c2 c3 c4 hn h1 h8 ignored))
  have htask := (congrArg State.task ht).trans (commandWrite_task ..)
  refine ⟨_, _, t, addressOf_ofNat _, rfl, ht, dispatched, fun hp => ?_⟩
  have hpending : t.txPending = [] := (congrArg State.txPending ht).trans hp
  exact ⟨proceed_transmitting hpending htask, proceed_proceed_transmitting hpending htask⟩

/-! ## What every command leaves unchanged -/

/-- Of the session's fields, the draws and the main loop's place, t differs from s in i's own only
(44_command_protocol.md R225 to R234). -/
structure SessionFrame (i : Instr) (s t : State) : Prop where
  transient : (∀ a b c d, i ≠ .transmit a b c d) →
    t.cmdId = s.cmdId ∧ t.cmdDlc = s.cmdDlc ∧ t.draws = s.draws ∧ t.task = s.task
  connected : (∀ p, i ≠ .openSession p) → (∀ p, i ≠ .closeSession p) → t.connected = s.connected
  bitrate : (∀ d p, i ≠ .selectBitrate d p) → t.bitrateSel = s.bitrateSel
  timestamp : (∀ d p, i ≠ .setTimestamp d p) → t.timestamp = s.timestamp

/-- A reply writes none of the session's fields. -/
theorem SessionFrame.emit (i : Instr) (bytes : List Byte) (s : State) : SessionFrame i s (emit bytes s) :=
  ⟨fun _ => ⟨rfl, rfl, rfl, rfl⟩, fun _ _ => rfl, fun _ => rfl, fun _ => rfl⟩

theorem exec_sessionFrame {i : Instr} {s t : State} (h : exec i s = .next t) : SessionFrame i s t := by
  have replied {bytes : List Byte} (e : exec i s = .next (emit bytes s)) : SessionFrame i s t := by
    cases h.symm.trans e
    exact .emit i bytes s
  cases i with
  | openSession p =>
    by_cases hp : p = []
    · subst hp
      cases h.symm.trans exec_openSession_nil
      exact { SessionFrame.emit _ [0x0D#8] s with connected := fun hi => absurd rfl (hi _) }
    · exact replied (exec_openSession_payload hp)
  | closeSession p =>
    cases h.symm.trans (exec_closeSession p)
    exact { SessionFrame.emit _ [0x0D#8] s with connected := fun _ hi => absurd rfl (hi _) }
  | selectBitrate digit p =>
    cases hc : s.connected with
    | true => exact replied (exec_selectBitrate_connected hc digit p)
    | false =>
      cases hd : bitrateDigit (char (digit.toList ++ p) s.draws 1) with
      | none => exact replied (exec_selectBitrate_unknown hc hd)
      | some d =>
        cases h.symm.trans (exec_selectBitrate_known hc hd)
        exact { SessionFrame.emit _ [0x0D#8] s with bitrate := fun hi => absurd rfl (hi _ _) }
  | customBitrate p =>
    cases hc : s.connected with
    | true => exact replied (exec_customBitrate_connected hc p)
    | false => exact replied (exec_customBitrate_unconnected hc p)
  | setTimestamp digit p =>
    by_cases hl : (digit.toList ++ p).length = 1
    · cases hd : timestampDigit (char (digit.toList ++ p) s.draws 1) with
      | none => exact replied (exec_setTimestamp_unknown hl hd)
      | some b =>
        cases h.symm.trans (exec_setTimestamp_known hl hd)
        exact { SessionFrame.emit _ [0x0D#8] s with timestamp := fun hi => absurd rfl (hi _ _) }
    · exact replied (exec_setTimestamp_badLength hl)
  | transmit ids len data ignored =>
    have written {id dlc used task}
        (e : exec (.transmit ids len data ignored) s =
          .next (commandWrite s.connected id dlc s.timestamp s.bitrateSel used task s)) :
        SessionFrame (.transmit ids len data ignored) s t := by
      cases h.symm.trans e
      exact ⟨fun hi => absurd rfl (hi _ _ _ _), fun _ _ => rfl, fun _ => rfl, fun _ => rfl⟩
    cases hc : s.connected with
    | false =>
      exact written ((exec_transmit_unconnected hc ids len data ignored).trans
        (congrArg _ (commandWrite_self s).symm))
    | true =>
      cases hn : dlcValid (hexval (char (transmitPayload ids len data ignored) s.draws 4)) with
      | true => exact written (exec_transmit_sends hc ids len data ignored rfl hn)
      | false => exact written (exec_transmit_silent hc ids len data ignored rfl hn)
  | serialNumber | swVersion | hwVersion | other => exact replied rfl

theorem exec_sameLine {i : Instr} {s t : State} (h : exec i s = .next t) : SameLine s t := by
  obtain ⟨_, _, _, _, _, _, _, u, rfl, _, ⟨_, _, e⟩ | ⟨_, e⟩ | ⟨_, _, _, _, _, _, _, _, e⟩⟩ :=
    exec_cases i s <;> cases h.symm.trans e <;> exact ⟨rfl, rfl, rfl⟩

/-- Settles O43: a command writes the main loop's own fields only (`mainWrite_exec`), of those not the line,
and of the session's those of its `SessionFrame`. -/
theorem commandsWriteOnlyTheirFields : Obligations.CommandsWriteOnlyTheirFields := by
  intro i s t h
  have line := exec_sameLine h
  obtain ⟨transient, connected, bitrate, timestamp⟩ := exec_sessionFrame h
  obtain ⟨m, rfl⟩ := mainWrite_exec h
  exact ⟨⟨rfl, rfl, rfl, rfl, rfl, rfl⟩, ⟨rfl, rfl, rfl, rfl⟩, line, ⟨rfl, rfl, rfl⟩, ⟨rfl, rfl⟩,
    ⟨rfl, rfl⟩, rfl, rfl, transient, connected, bitrate, timestamp⟩

end Sys2Proof.Machine
end

section
/-! PROOF. O45, O48 and O46: the line parser, and the step that runs a line (44_command_protocol.md R220 to
R223). -/

namespace Sys2Proof.Machine

/-! ## A host byte, an equation per case (44_command_protocol.md R220) -/

theorem onHostByte_nul (s : State) : onHostByte 0x00#8 s = .next s := rfl

theorem onHostByte_terminator {c : Byte} (h : c = 0x0D#8 ∨ c = 0x0A#8) (s : State) :
    onHostByte c s = onTerminator s := by rcases h with rfl | rfl <;> rfl

theorem onHostByte_char {c : Byte} (h : storable c = true) (s : State) :
    onHostByte c s = .next (onChar c s) := by
  obtain ⟨nul, cr, lf⟩ := (storable_iff c).mp h
  exact (if_neg nul).trans (if_neg fun e => e.elim cr lf)

section
variable {s : State}

theorem onChar_discarding (h : s.lineDiscard = true) (c : Byte) : onChar c s = s := if_pos h

theorem onChar_room (hd : s.lineDiscard = false) {n : Nat} (hn : s.lineLen.val = n) (h : n + 1 < 26)
    (c : Byte) :
    onChar c s = { s with lineBuf := s.lineBuf.set n c, lineLen := ⟨n + 1, h⟩ } := by
  subst hn
  rw [onChar, if_neg (by simp [hd])]
  exact dif_pos h

theorem onChar_full (hd : s.lineDiscard = false) (hn : s.lineLen.val = 25) (c : Byte) :
    onChar c s =
      { s with
        lineBuf := s.lineBuf.set 25 c, lineLen := 0
        lineDiscard := s.params.overflowDiscardsRest } := by
  rw [onChar, if_neg (by simp [hd])]
  simp [hn, lineCapacity]

theorem onTerminator_discarding (h : s.lineDiscard = true) :
    onTerminator s = .next { s with lineDiscard := false, lineLen := 0 } := if_pos h

theorem onTerminator_empty (hd : s.lineDiscard = false) (hl : s.lineLen = 0) :
    onTerminator s = .next s := (if_neg (by simp [hd])).trans (if_pos hl)

end

/-- Settles O45: NUL stores nothing, and of the other characters `onChar` decides. -/
theorem charactersAccumulate : Obligations.CharactersAccumulate := by
  refine fun c s => ⟨onHostByte_nul s, fun nul cr lf => ?_⟩
  rw [onHostByte_char ((storable_iff c).mpr ⟨nul, cr, lf⟩)]
  exact ⟨fun hd => congrArg _ (onChar_discarding hd c),
    fun hd _ h hn => congrArg _ (onChar_room hd hn h c), fun hd hn => congrArg _ (onChar_full hd hn c)⟩

/-- Settles O48: the two cases of a terminator that come before any dispatch. -/
theorem emptyLineDispatchesNothing : Obligations.EmptyLineDispatchesNothing := by
  intro s c hc
  rw [onHostByte_terminator hc]
  exact ⟨onTerminator_empty, onTerminator_discarding⟩

/-- Only a `t` line leaves the main loop inside its step (20_memory.md R69). -/
theorem exec_transmit_of_task_ne {i : Instr} {s t : State} (h : exec i s = .next t)
    (hs : s.task = .choosing) (ht : t.task ≠ .choosing) : ∃ a b c d, i = .transmit a b c d := by
  by_contra hi
  obtain ⟨_, _, _, same⟩ := (exec_sessionFrame h).transient fun a b c d e => hi ⟨a, b, c, d, e⟩
  exact ht (same.trans hs)

/-- Settles O46: the scheduled step serves the terminator, which dispatches the line and ends it unless the
command goes on. -/
theorem stepRunsDecodedLine : Obligations.StepRunsDecodedLine := by
  intro s c more rest i hb hp hc hs hrx hterm hd hl hi
  obtain ⟨t, ht⟩ := exec_next i (terminateLine { s with schedule := rest, serialRx := more })
  have free := whenFree_free (s := { s with schedule := rest }) hp hc serveHost
  have ran : step s = .next (endLine t) :=
    calc step s = whenFree { s with schedule := rest } serveHost := step_scheduled hb hs
      _ = serveHost { s with schedule := rest } := free
      _ = onHostByte c { s with schedule := rest, serialRx := more } := serveHost_cons hrx
      _ = onTerminator { s with schedule := rest, serialRx := more } := onHostByte_terminator hterm _
      _ = .next (endLine t) := onTerminator_dispatches hd hl hi ht
  refine ⟨t, ht, fun ended => ?_, fun goesOn => ⟨?_, exec_transmit_of_task_ne ht hc goesOn⟩⟩
  · rw [ran, endLine, if_pos ended]
    rfl
  · rw [ran, endLine, if_neg goesOn]

end Sys2Proof.Machine
end

section
/-! PROOF. O49 to O51: the text of a frame and its digits, and ForwardOne in its two units
(45_host_forwarding.md). -/

namespace Sys2Proof.Machine

/-! ## HexLower (45_host_forwarding.md R260) -/

/-- The sixteen digits `HexLower` writes, each at its value. -/
def lowerHexDigits : List Byte :=
  [0x30#8, 0x31#8, 0x32#8, 0x33#8, 0x34#8, 0x35#8, 0x36#8, 0x37#8, 0x38#8, 0x39#8, 0x61#8, 0x62#8,
    0x63#8, 0x64#8, 0x65#8, 0x66#8]

theorem hexDigit_mem {v : Nat} (h : v < 16) : hexDigit v ∈ lowerHexDigits := by
  have table : ∀ k : Fin 16, hexDigit k ∈ lowerHexDigits := by decide
  exact table ⟨v, h⟩

theorem hexval_hexDigit {v : Nat} (h : v < 16) : hexval (hexDigit v) = v := by
  by_cases decimal : v ≤ 9
  · have code : (hexDigit v).toNat = 0x30 + v := by
      rw [hexDigit, if_pos decimal, BitVec.toNat_ofNat]
      omega
    rw [hexval_decimal (by omega), code]
    omega
  · have code : (hexDigit v).toNat = 0x61 + v - 10 := by
      rw [hexDigit, if_neg decimal, BitVec.toNat_ofNat]
      omega
    rw [hexval_lower (by omega), code]
    omega

/-- Settles O49: each of the two nibbles is below 16, and its digit is read back as it. -/
theorem hexTextReadsBack : Obligations.HexTextReadsBack := by
  intro b
  have high : (b.extractLsb' 4 4).toNat < 16 := (b.extractLsb' 4 4).isLt
  have low : (b.extractLsb' 0 4).toNat < 16 := (b.extractLsb' 0 4).isLt
  refine ⟨_, _, rfl, ?_, hexDigit_mem high, hexDigit_mem low⟩
  rw [hexval_hexDigit high, hexval_hexDigit low, BitVec.extractLsb'_toNat, BitVec.extractLsb'_toNat,
    Nat.shiftRight_eq_div_pow, Nat.shiftRight_eq_div_pow]
  omega

/-! ## EncodeFrame (45_host_forwarding.md R261, R262) -/

theorem dataDigit_inRange {n : Nat} (h1 : 1 ≤ n) (h9 : n ≤ 9) :
    dataDigit (n + 1) = BitVec.ofNat 8 (0x30 + (n - 1)) :=
  if_pos (by omega)

theorem dataDigit_tooLong {n : Nat} (h : 9 < n) : dataDigit (n + 1) = 0x30#8 :=
  if_neg (by omega)

/-- From index 2 on every byte is its two digits alone. -/
theorem mapIdx_encodeByte_tail (length : Nat) (bs : List Byte) :
    bs.mapIdx (fun i => encodeByte length (i + 1 + 1)) = bs.map hexLower := by
  refine List.ext_getElem (by simp) fun i _ _ => ?_
  simp [encodeByte]

theorem encodeFrame_singleton (id : Byte) :
    encodeFrame [id] = [0x74#8] ++ hexLower id ++ [0x0D#8] := rfl

/-- The text of a frame of more bytes than its identifier: the space and the data length digit, written
before the byte at index 1, stand between the identifier and all later digits. -/
theorem encodeFrame_cons {rest : List Byte} (h : rest ≠ []) (id : Byte) :
    encodeFrame (id :: rest) =
      [0x74#8] ++ hexLower id ++ [0x20#8, dataDigit (rest.length + 1)] ++ rest.flatMap hexLower ++
        [0x0D#8] := by
  cases rest with
  | nil => exact absurd rfl h
  | cons b more =>
    simp only [encodeFrame, List.mapIdx_cons, mapIdx_encodeByte_tail, ← List.flatMap_def,
      List.flatten_cons, List.flatMap_cons, List.append_assoc, List.length_cons]
    rfl

/-- Settles O50: the two shapes of the text, and the two cases of its data length digit. -/
theorem encodedFrameText : Obligations.EncodedFrameText := by
  intro id rest
  refine ⟨fun h => h ▸ encodeFrame_singleton id, fun h1 h9 => ?_, fun h9 => ?_⟩
  · rw [encodeFrame_cons (List.ne_nil_of_length_pos h1), dataDigit_inRange h1 h9]
  · rw [encodeFrame_cons (List.ne_nil_of_length_pos (by omega)), dataDigit_tooLong h9]

/-! ## ForwardOne (45_host_forwarding.md R263, R264) -/

theorem takeFrame_of_empty {s : State} (h : s.head = s.tail) :
    takeFrame s = { s with irqEnabled := true } := by
  rw [takeFrame, pop_of_empty h]

theorem takeFrame_of_waiting {s : State} {f : List Byte} {more : List (List Byte)}
    (h : waiting s = f :: more) :
    takeFrame s = { s with irqEnabled := true, tail := s.tail + 1, task := .forwarding f } := by
  have ne : s.head ≠ s.tail := by
    rw [Ne, head_eq_tail_iff_waiting_nil, h]
    exact List.cons_ne_nil f more
  obtain ⟨oldest, -⟩ := List.cons.inj ((waiting_eq_cons ne).symm.trans h)
  rw [takeFrame, pop_of_waiting ne, oldest]

theorem takeFrame_errFlags (s : State) : (takeFrame s).errFlags = s.errFlags := by
  rcases takeFrame_cases s with ⟨_, h⟩ | ⟨_, h⟩ <;> rw [h]

theorem forwardFrame_errFlags (f : List Byte) (s : State) :
    (forwardFrame f s).errFlags = s.errFlags := by
  rcases forwardFrame_cases f s with h | h <;> rw [h]
  exact emit_errFlags _ _

theorem forwardFrame_of_closed {s : State} (hc : s.connected = false)
    (hp : s.params.forwardRequiresConnected = true) (f : List Byte) :
    forwardFrame f s = { s with task := .choosing } :=
  if_pos (by simp [hc, hp])

theorem forwardFrame_of_invalid {s : State} {f : List Byte}
    (hv : isValid s.params.checksumIncludesId f = false) :
    forwardFrame f s = { s with task := .choosing } := by
  simp [forwardFrame, hv]

theorem forwardFrame_of_valid {s : State} {f : List Byte}
    (allowed : s.connected = true ∨ s.params.forwardRequiresConnected = false)
    (hv : isValid s.params.checksumIncludesId f = true) :
    forwardFrame f s = emit (encodeFrame f) { s with task := .choosing } := by
  have notRefused : ¬(!s.connected && s.params.forwardRequiresConnected) = true := by
    rcases allowed with h | h <;> simp [h]
  exact (if_neg notRefused).trans (if_pos hv)

/-- Settles O51: the two outcomes of the pop, and the branches of the rest. -/
theorem forwardOnePopsValidatesEncodes : Obligations.ForwardOnePopsValidatesEncodes := by
  intro s
  refine ⟨takeFrame_of_empty, fun f more => takeFrame_of_waiting, takeFrame_errFlags s, fun f =>
    ⟨?_, forwardFrame_of_valid, forwardFrame_errFlags f s⟩⟩
  rintro (⟨hc, hp⟩ | hv)
  · exact forwardFrame_of_closed hc hp f
  · exact forwardFrame_of_invalid hv

end Sys2Proof.Machine
end

section
/-! PROOF. O15 to O17: what a tick does to the error byte and to the ring buffer, and that it touches nothing
of the main loop's (60_exceptions.md R303, R310, R314). -/

namespace Sys2Proof.Machine

/-! ## The kind a tick raises (60_exceptions.md R303, R310) -/

/-- The step from s to t leaves the error byte, or raises one kind, never Other (D7), and the Receiver looks
for a break again, with no low sample counted (D9). -/
def RaisesAtMostOne (s t : State) : Prop :=
  t.errFlags = s.errFlags ∨
    ∃ k : RxError, k ≠ .other ∧ t.errFlags = s.errFlags ||| errMask k ∧
      t.rxMode = .detectBreak ∧ t.lowCount = 0

/-- A hand-off leaves the error byte or raises the overrun; after it the Receiver looks for a break. -/
theorem raisesAtMostOne_handOff (s : State) : RaisesAtMostOne s (enterDetectBreak (handOff s)) := by
  rcases handOff_cases s with ⟨_, e⟩ | ⟨_, e⟩ <;> rw [e]
  · exact .inl rfl
  · exact .inr ⟨.bufferOverrun, nofun, rfl, rfl, rfl⟩

theorem raisesAtMostOne_tick (l : Level) (w1 w2 : Wait) (s : State) :
    RaisesAtMostOne s (tick l w1 w2 s) := by
  rcases takeInterrupt_cases (receiverTick l w1 w2) s with ⟨_, e⟩ | ⟨_, e⟩ <;> rw [tick, e]
  · obtain ⟨m, low, bytes, bit, a, p, f, u, rfl, h | ⟨k, hk, h⟩ | ⟨_, h⟩⟩ :=
      receiverTick_cases l w1 w2 s <;> rw [h]
    · exact .inl rfl
    · exact .inr ⟨k, hk, rfl, rfl, rfl⟩
    · exact raisesAtMostOne_handOff (receiverWrite m low bytes bit a p f s)
  · exact .inl rfl

/-- Settles O15: the kind raised is that of `raisesAtMostOne_tick`. -/
theorem tickRaisesAtMostOneKind : Obligations.TickRaisesAtMostOneKind :=
  fun s l w1 w2 => (raisesAtMostOne_tick l w1 w2 s).imp_right fun ⟨k, hk, raised, _⟩ => ⟨k, hk, raised⟩

/-! ## No rule of the Receiver reads the error byte (42_ringbuffer_errors.md R183)

Every test a rule makes is therefore the same with more bits set, and `addErrors` passes into both of its
branches; there the last thing done to the error byte is a `raise`, whose OR commutes with that of
`addErrors`. -/

/-- The bits e set in the error byte beside those it has. -/
def addErrors (e : Byte) (s : State) : State := { s with errFlags := e ||| s.errFlags }

theorem addErrors_cleared (s : State) : addErrors s.errFlags { s with errFlags := 0x00#8 } = s := by
  simp only [addErrors, BitVec.or_zero]

theorem raise_addErrors (k : RxError) (e : Byte) (s : State) :
    raise k (addErrors e s) = addErrors e (raise k s) := by
  simp only [raise, addErrors, BitVec.or_assoc]

theorem handOff_addErrors (e : Byte) (s : State) : handOff (addErrors e s) = addErrors e (handOff s) := by
  rcases handOff_cases s with ⟨room, h⟩ | ⟨full, h⟩ <;> rw [h]
  · exact if_neg room
  · refine (if_pos full).trans ?_
    exact congrArg (fun t => { t with head := s.head + 1, tail := s.tail + 1 })
      (raise_addErrors .bufferOverrun e s)

theorem enterDetectBreak_raise_addErrors (k : RxError) (e : Byte) (s : State) :
    enterDetectBreak (raise k (addErrors e s)) = addErrors e (enterDetectBreak (raise k s)) :=
  congrArg enterDetectBreak (raise_addErrors k e s)

theorem interByteWait_addErrors (w : Wait) (e : Byte) (s : State) :
    interByteWait w (addErrors e s) = addErrors e (interByteWait w s) := by
  cases w with
  | edge =>
    simp only [interByteWait, nextByte, apply_ite (addErrors e), ← enterDetectBreak_raise_addErrors]
    rfl
  | timeout =>
    simp only [interByteWait, frameEnd, apply_ite (addErrors e), ← enterDetectBreak_raise_addErrors,
      handOff_addErrors]
    rfl

theorem stopBitTick_addErrors (l : Level) (w : Wait) (e : Byte) (s : State) :
    stopBitTick l w (addErrors e s) = addErrors e (stopBitTick l w s) := by
  cases l with
  | low => exact enterDetectBreak_raise_addErrors _ e s
  | high =>
    simp only [stopBitTick, syncByteDone, frameByteDone, apply_ite (addErrors e),
      ← enterDetectBreak_raise_addErrors, ← interByteWait_addErrors]
    rfl

theorem startBitTick_addErrors (l : Level) (e : Byte) (s : State) :
    startBitTick l (addErrors e s) = addErrors e (startBitTick l s) := by
  cases l with
  | low => rfl
  | high => exact enterDetectBreak_raise_addErrors _ e s

theorem readDataTick_addErrors (l : Level) (w : Wait) (e : Byte) (s : State) :
    readDataTick l w (addErrors e s) = addErrors e (readDataTick l w s) := by
  simp only [readDataTick, apply_ite (addErrors e), ← startBitTick_addErrors, ← stopBitTick_addErrors]
  rfl

theorem detectBreakTick_addErrors (l : Level) (w1 w2 : Wait) (e : Byte) (s : State) :
    detectBreakTick l w1 w2 (addErrors e s) = addErrors e (detectBreakTick l w1 w2 s) := by
  cases l with
  | high => rfl
  | low =>
    simp only [detectBreakTick, apply_ite (addErrors e)]
    cases w1 <;> cases w2 <;> rfl

/-- Bits set before a tick are set after it, and change nothing else of what it does. -/
theorem tick_addErrors (l : Level) (w1 w2 : Wait) (e : Byte) (s : State) :
    tick l w1 w2 (addErrors e s) = addErrors e (tick l w1 w2 s) := by
  cases hi : s.irqEnabled with
  | false => rw [maskedTickRunsNothing s l w1 w2 hi, maskedTickRunsNothing (addErrors e s) l w1 w2 hi]
  | true =>
    cases hm : s.rxMode with
    | detectBreak =>
      rw [tick_detectBreak hi hm, ← detectBreakTick_addErrors]
      exact tick_detectBreak (s := addErrors e s) hi hm l w1 w2
    | readData =>
      rw [tick_readData hi hm, ← readDataTick_addErrors]
      exact tick_readData (s := addErrors e s) hi hm l w1 w2

/-- Settles O16: a tick of s is the tick of s with a cleared error byte and the bits of s added
(`tick_addErrors`); of that tick `raisesAtMostOne_tick` says where an error leaves the Receiver. -/
theorem errorResynchronisesInSameTick : Obligations.ErrorResynchronisesInSameTick := by
  intro s l w1 w2 raised
  have added : tick l w1 w2 s = addErrors s.errFlags (tick l w1 w2 { s with errFlags := 0x00#8 }) := by
    rw [← tick_addErrors, addErrors_cleared]
  rw [added]
  obtain unraised | ⟨_, _, _, mode, count⟩ := raisesAtMostOne_tick l w1 w2 { s with errFlags := 0x00#8 }
  · exact absurd unraised raised
  · exact ⟨mode, count, rfl⟩

/-! ## What a tick leaves of the ring buffer (60_exceptions.md R314, 20_memory.md R74) -/

/-- Of the ring buffer, the step from s to t writes the slot at head only, and moves the indices in a hand-off
only: head past a frame of at least one byte, tail when head meets it. -/
structure RingFrame (s t : State) : Prop where
  slots : ∀ k : Fin 8, k ≠ s.head → slotAt k t = slotAt k s
  head : t.head = s.head ∨ (t.head = s.head + 1 ∧ 1 ≤ (slotAt s.head t).length.val)
  tail : t.tail = s.tail ∨ (t.tail = s.tail + 1 ∧ t.head = s.tail)

theorem RingFrame.of_eq {s t : State} (hs : t.slots = s.slots) (hh : t.head = s.head)
    (ht : t.tail = s.tail) : RingFrame s t :=
  ⟨fun k _ => congrArg (·[k]) hs, .inl hh, .inl ht⟩

/-- What the invocation wrote before, into the slot at head, is within the frame too. -/
theorem RingFrame.of_receiverWrite {s t : State} {m : RxMode} {low bytes bit : Nat} {a : Byte}
    {p : TimerPhase} {f : Slot} (h : RingFrame (receiverWrite m low bytes bit a p f s) t) :
    RingFrame s t :=
  ⟨fun k hk => (h.slots k hk).trans (slotAt_setSlot_ne hk f _), h.head, h.tail⟩

theorem ringFrame_handOff {s : State} (h : 1 ≤ (slotAt s.head s).length.val) :
    RingFrame s (enterDetectBreak (handOff s)) := by
  rcases handOff_cases s with ⟨_, e⟩ | ⟨full, e⟩ <;> rw [e]
  · exact ⟨fun _ _ => rfl, .inr ⟨rfl, h⟩, .inl rfl⟩
  · exact ⟨fun _ _ => rfl, .inr ⟨rfl, h⟩, .inr ⟨rfl, full⟩⟩

theorem ringFrame_tick (l : Level) (w1 w2 : Wait) (s : State) : RingFrame s (tick l w1 w2 s) := by
  rcases takeInterrupt_cases (receiverTick l w1 w2) s with ⟨_, e⟩ | ⟨_, e⟩ <;> rw [tick, e]
  · obtain ⟨m, low, bytes, bit, a, p, f, u, rfl, h | ⟨k, _, h⟩ | ⟨length, h⟩⟩ :=
      receiverTick_cases l w1 w2 s <;> rw [h] <;> apply RingFrame.of_receiverWrite
    · exact .of_eq rfl rfl rfl
    · exact .of_eq rfl rfl rfl
    · exact ringFrame_handOff (length.trans_eq (congrArg (·.length.val) (slotAt_setSlot_self ..).symm))
  · exact .of_eq rfl rfl rfl

/-- Settles O17: no field but those of `tick_touches` is written, and of these the ring buffer's are in the
frame of `ringFrame_tick`. -/
theorem tickTouchesOnlyInterruptState : Obligations.TickTouchesOnlyInterruptState := by
  intro s l w1 w2
  obtain ⟨slots, head, tail⟩ := ringFrame_tick l w1 w2 s
  obtain ⟨_, _, _, _, _, _, _, _, _, _, e⟩ := tick_touches l w1 w2 s
  rw [e] at slots head tail ⊢
  exact ⟨⟨rfl, rfl, rfl⟩, ⟨rfl, rfl, rfl, rfl, rfl⟩, ⟨rfl, rfl⟩, ⟨rfl, rfl, rfl⟩, ⟨rfl, rfl, rfl⟩,
    ⟨rfl, rfl⟩, rfl, rfl, rfl, rfl, slots, head, tail⟩

end Sys2Proof.Machine
end

section
/-! PROOF. O44: serial writes into a queue with room and into a full one (60_exceptions.md R305, R322). -/

namespace Sys2Proof.Machine

/-! ## A drain, an equation per room and policy (92_eei_decisions.md D19) -/

section
variable {s : State}

theorem txDrain_ample (h : s.txRoom = .ample) :
    txDrain s = { s with hostOut := s.hostOut ++ s.txPending, txPending := [] } := by
  rw [txDrain, h, txAccept_ample, ← h]

theorem txDrain_block {n : Nat} (h : s.txRoom = .free n) (hp : s.params.txFullPolicy = .block) :
    txDrain s =
      { s with
        hostOut := s.hostOut ++ s.txPending.take n, txPending := s.txPending.drop n
        txRoom := .free (n - s.txPending.length) } := by
  rw [txDrain, h, hp, txAccept_free]

theorem txDrain_drop {n : Nat} (h : s.txRoom = .free n) (hp : s.params.txFullPolicy = .drop) :
    txDrain s =
      { s with
        hostOut := s.hostOut ++ s.txPending.take n, txPending := []
        txRoom := .free (n - s.txPending.length) } := by
  rw [txDrain, h, hp, txAccept_free]

end

/-! ## A write -/

/-- A queue with room takes all of the bytes, whatever the policy. -/
theorem txAccept_of_txTakes {s : State} {bytes : List Byte} (h : txTakes s bytes.length)
    (p : TxFullPolicy) : ∃ room, txAccept p s.txRoom bytes = (bytes, [], room) := by
  obtain ⟨_, room⟩ := h
  cases hr : s.txRoom with
  | ample => exact ⟨_, txAccept_ample p bytes⟩
  | free n =>
    rw [hr] at room
    rw [txAccept_free, List.take_of_length_le room, List.drop_of_length_le room]
    cases p <;> exact ⟨_, rfl⟩

theorem emit_of_txTakes {s : State} {bytes : List Byte} (h : txTakes s bytes.length) :
    ∃ room, emit bytes s = { s with hostOut := s.hostOut ++ bytes, txRoom := room } := by
  obtain ⟨room, taken⟩ := txAccept_of_txTakes h s.params.txFullPolicy
  obtain ⟨pending, _⟩ := h
  refine ⟨room, ?_⟩
  simp only [emit, txDrain, pending, List.nil_append, taken]

/-- Under `block` the bytes written and those that still wait are all there were, in order. -/
theorem emit_block {s : State} (h : s.params.txFullPolicy = .block) (bytes : List Byte) :
    (emit bytes s).hostOut ++ (emit bytes s).txPending = s.hostOut ++ s.txPending ++ bytes := by
  rw [emit_hostOut, emit_txPending, h, List.append_assoc, txAccept_block, List.append_assoc]

/-- Under `drop` the first bytes are written, as many as there is room for, and none waits. -/
theorem emit_drop {s : State} (h : s.params.txFullPolicy = .drop) (hp : s.txPending = [])
    (bytes : List Byte) :
    ∃ k, (emit bytes s).hostOut = s.hostOut ++ bytes.take k ∧ (emit bytes s).txPending = [] ∧
      ∀ n, s.txRoom = .free n → k = n := by
  rw [emit_hostOut, emit_txPending, h, hp, List.nil_append, txAccept_drop]
  cases s.txRoom with
  | ample => exact ⟨bytes.length, by rw [List.take_length, txAccept_ample], rfl, nofun⟩
  | free n => exact ⟨n, rfl, rfl, fun _ hn => TxRoom.free.inj hn⟩

/-- Settles O44: a write is by definition a drain of what waits and the bytes; the clauses are the equations
above. -/
theorem serialWritesFollowThePolicy : Obligations.SerialWritesFollowThePolicy :=
  fun bytes _ => ⟨rfl, ⟨_, _, _, rfl⟩, txDrain_ample, fun _ => txDrain_block, fun _ => txDrain_drop,
    emit_of_txTakes, fun h => emit_block h bytes, fun h hp => emit_drop h hp bytes⟩

end Sys2Proof.Machine
end

section
/-! PROOF. O54: every step answers a next state, since a line that is dispatched decodes and every command has
its meaning (60_exceptions.md R305, 30_encoding.md R90). -/

namespace Sys2Proof.Machine

/-- The outcome is neither a fault nor a refusal. -/
def AnswersNext (o : Host.Outcome State Fault Refusal) : Prop := ∃ t, o = .next t

theorem onTerminator_answersNext (s : State) : AnswersNext (onTerminator s) := by
  obtain ⟨_, h⟩ | ⟨_, _, h⟩ | ⟨_, _, _, _, _, _, h⟩ := onTerminator_cases s <;> exact ⟨_, h⟩

theorem onHostByte_answersNext (c : Byte) (s : State) : AnswersNext (onHostByte c s) := by
  obtain ⟨_, h⟩ | ⟨_, h⟩ | ⟨_, h⟩ := onHostByte_cases c s
  · exact ⟨_, h⟩
  · exact h ▸ onTerminator_answersNext s
  · exact ⟨_, h⟩

theorem serveHost_answersNext (s : State) : AnswersNext (serveHost s) := by
  obtain h | ⟨c, rest, _, h⟩ := serveHost_cases s
  · exact ⟨_, h⟩
  · exact h ▸ onHostByte_answersNext c { s with serialRx := rest }

/-- A step of R265 that does not start leaves the state, which is an answer too. -/
theorem whenFree_answersNext {unit : State → Host.Outcome State Fault Refusal} {s : State}
    (hu : AnswersNext (unit s)) : AnswersNext (whenFree s unit) := by
  obtain ⟨_, _, h⟩ | ⟨_, h⟩ := whenFree_cases s unit
  · exact h ▸ hu
  · exact ⟨_, h⟩

theorem runEvent_answersNext (e : Event) (s : State) : AnswersNext (runEvent e s) := by
  cases e with
  | serveHost => exact whenFree_answersNext (serveHost_answersNext s)
  | forward => exact whenFree_answersNext (unit := fun s => .next (takeFrame s)) ⟨_, rfl⟩
  | readErrors => exact whenFree_answersNext (unit := fun s => .next (readErrors s)) ⟨_, rfl⟩
  | tick | hostSends | txQueue | proceed => exact ⟨_, rfl⟩

/-- Settles O54: a boot step answers, and so does every event, at whatever state it runs. -/
theorem stepAlwaysAnswersNext : Obligations.StepAlwaysAnswersNext := by
  intro s
  obtain ⟨_, h⟩ | ⟨_, _, _, e, u, _, h⟩ := step_cases s
  · exact ⟨_, h⟩
  · exact h ▸ runEvent_answersNext e u

end Sys2Proof.Machine
end

section
/-! PROOF. O52, O53, O57: the reset table, the boot sequence step by step, and that the configuration is
computed in its first step and written by no other (70_reset_and_hazards.md R340 to R343). -/

namespace Sys2Proof.Machine

/-! ## Reset and boot (70_reset_and_hazards.md R340 to R342) -/

/-- Settles O52: each field of `State.reset` stands at the value of the table by definition. -/
theorem resetTable : Obligations.ResetTable :=
  ⟨rfl, rfl, rfl, rfl, rfl, rfl, rfl, rfl, rfl, rfl, rfl, rfl, rfl, rfl, rfl, rfl, rfl⟩

/-- Until the block runs, every step is a step of the boot sequence. -/
theorem step_of_booting {s : State} (h : s.boot ≠ .running) : step s = .next (bootStep s) := by
  obtain ⟨_, e⟩ | ⟨running, _⟩ := step_cases s
  · exact e
  · exact absurd running h

/-- Settles O53: in none of the four phases the block runs yet, so the phase's boot step is the step. -/
theorem bootRunsInOrder : Obligations.BootRunsInOrder := by
  intro s
  refine ⟨fun h => ?_, fun h => ?_, fun h => ?_, fun h => ?_⟩ <;>
    rw [step_of_booting (by simp [h]), bootStep, h]

theorem bootStep_params (s : State) : (bootStep s).params = s.params := by
  cases h : s.boot <;> rw [bootStep, h]

theorem bootStep_boot_ne_fieldsReset (s : State) : (bootStep s).boot ≠ .fieldsReset := by
  cases h : s.boot <;> simp [bootStep, h]

theorem bootStep_cfg_of_fieldsReset {s : State} (h : s.boot = .fieldsReset) :
    (bootStep s).cfg = Config.timerCfg s.params.baud s.params.interByteMultiplier := by
  rw [bootStep, h]

theorem bootStep_cfg_of_ne_fieldsReset {s : State} (h : s.boot ≠ .fieldsReset) :
    (bootStep s).cfg = s.cfg := by
  cases e : s.boot with
  | fieldsReset => exact absurd e h
  | cfgComputed | txReleased | timerStarted | running => rw [bootStep, e]

/-! ## A running block writes no configuration (10_state.md R39; logs 8 and 19) -/

/-- The second state has the first one's configuration, parameters and place in the boot sequence. -/
structure ConfigKept (s t : State) : Prop where
  cfg : t.cfg = s.cfg
  params : t.params = s.params
  boot : t.boot = s.boot

theorem ConfigKept.refl (s : State) : ConfigKept s s := ⟨rfl, rfl, rfl⟩

/-- The configuration is none of the main loop's own fields. -/
theorem MainWrite.configKept {s t : State} (h : MainWrite s t) : ConfigKept s t := by
  obtain ⟨_, rfl⟩ := h
  exact ⟨rfl, rfl, rfl⟩

theorem configKept_tick (l : Level) (w1 w2 : Wait) (s : State) : ConfigKept s (tick l w1 w2 s) := by
  obtain ⟨_, _, _, _, _, _, _, _, _, _, h⟩ := tick_touches l w1 w2 s
  rw [h]
  exact ⟨rfl, rfl, rfl⟩

theorem configKept_serveHost {s t : State} (h : serveHost s = .next t) : ConfigKept s t := by
  obtain e | ⟨_, rest, _, e⟩ := serveHost_cases s
  · cases h.symm.trans e
    exact .refl s
  · have kept : ConfigKept { s with serialRx := rest } t :=
      (mainWrite_onHostByte (e.symm.trans h)).configKept
    exact ⟨kept.cfg, kept.params, kept.boot⟩

theorem configKept_takeFrame (s : State) : ConfigKept s (takeFrame s) := by
  rcases takeFrame_cases s with ⟨_, h⟩ | ⟨_, h⟩ <;> rw [h] <;> exact ⟨rfl, rfl, rfl⟩

theorem configKept_sendFrame (addr : Byte) (data : List Byte) (s : State) :
    ConfigKept s (sendFrame addr data s) := by
  obtain ⟨_, h⟩ := transmitFrame_touches addr data s
  rw [sendFrame, h]
  exact ⟨rfl, rfl, rfl⟩

theorem configKept_proceed (s : State) : ConfigKept s (proceed s) := by
  obtain ⟨_, e⟩ | ⟨_, ⟨addr, data, _, e⟩ | ⟨_, e⟩ | ⟨f, _, e⟩⟩ := proceed_cases s <;> rw [e]
  · exact .refl s
  · exact configKept_sendFrame addr data s
  · exact ((mainWrite_replySent s).trans (mainWrite_resetLine _)).configKept
  · exact (mainWrite_forwardFrame f s).configKept

theorem configKept_runEvent {e : Event} {s t : State} (h : runEvent e s = .next t) :
    ConfigKept s t := by
  cases e with
  | tick l w1 w2 => cases h; exact configKept_tick l w1 w2 s
  | hostSends b => cases h; exact ⟨rfl, rfl, rfl⟩
  | txQueue room => cases h; exact (mainWrite_txDrain room s).configKept
  | serveHost =>
    obtain ⟨_, _, hu⟩ | rfl := whenFree_next h
    · exact configKept_serveHost hu
    · exact .refl t
  | forward =>
    obtain ⟨_, _, hu⟩ | rfl := whenFree_next (unit := fun s => .next (takeFrame s)) h
    · cases hu; exact configKept_takeFrame s
    · exact .refl t
  | readErrors =>
    obtain ⟨_, _, hu⟩ | rfl := whenFree_next (unit := fun s => .next (readErrors s)) h
    · cases hu; exact ⟨rfl, rfl, rfl⟩
    · exact .refl t
  | proceed => cases h; exact configKept_proceed s

/-- Drawing the next event writes no configuration either. -/
theorem configKept_step_of_running {s t : State} (hb : s.boot = .running) (h : step s = .next t) :
    ConfigKept s t := by
  obtain ⟨booting, _⟩ | ⟨_, rest, k, e, u, rfl, h'⟩ := step_cases s
  · exact absurd hb booting
  · have kept : ConfigKept { s with schedule := rest, draws := k } t :=
      configKept_runEvent (h'.symm.trans h)
    exact ⟨kept.cfg, kept.params, kept.boot⟩

/-- Settles O57: a running block keeps all three, and of the boot steps only the first, to which no step
returns, writes cfg. -/
theorem configIsComputedOnceAtBoot : Obligations.ConfigIsComputedOnceAtBoot := by
  intro s t h
  by_cases hb : s.boot = .running
  · obtain ⟨cfg, params, boot⟩ := configKept_step_of_running hb h
    have running : t.boot = .running := boot.trans hb
    exact ⟨fun first => BootPhase.noConfusion (hb.symm.trans first), fun _ => cfg, by simp [running],
      params, fun _ => running⟩
  · cases h.symm.trans (step_of_booting hb)
    exact ⟨bootStep_cfg_of_fieldsReset, bootStep_cfg_of_ne_fieldsReset,
      bootStep_boot_ne_fieldsReset s, bootStep_params s, fun running => absurd running hb⟩

end Sys2Proof.Machine
end

section
/-! PROOF. O55: the reset state meets the invariant, whatever its unspecified fields hold (10_state.md
section 8, log 5). -/

namespace Sys2Proof.Machine

/-! ## What the two buffers hold at reset -/

@[simp] theorem waiting_reset : waiting State.reset = [] :=
  (head_eq_tail_iff_waiting_nil State.reset).mp rfl

@[simp] theorem lineOf_reset : lineOf State.reset = [] := List.take_zero

/-! ## The invariant at reset -/

/-- Settles O55: no frame is read, none waits, the line is empty and the main loop is inside no step, so
each clause about these has no case; the others are values of the reset table. -/
theorem resetMeetsTheRanges : Obligations.ResetMeetsTheRanges where
  lowCount_detect _ := by decide
  lowCount_read := nofun
  bitPos_le := by decide
  byteCount_le := by decide
  frame_empty := nofun
  frame_counts := nofun
  centred := nofun
  waiting_length := by simp
  flags_reserved := by decide
  line_storable := by simp
  discard_enabled := nofun
  bitrate_known := nofun
  tx_high := rfl
  irq_open := rfl
  boot_idle _ := rfl
  task_sends := nofun
  task_frame := nofun
  task_line := by rintro (replying | ⟨_, _, transmitting⟩) <;> contradiction
  task_idle _ := rfl
  task_free _ := rfl
  pending_blocked pending := absurd rfl pending

end Sys2Proof.Machine
end
